-- ==== Sys2Proof/Word.lean ====
section
/-! DEFINITION. The words of the BW460: characters, time base values, the four faces and the four markers, and a
record with one entry per face. -/

namespace Sys2Proof

/-- A character of a frame, a header, a response or a telegram, 0 to 255. -/
abbrev Byte := BitVec 8

/-- A value of the time base, a 32-bit count of milliseconds (00_scope, Quantities). -/
abbrev Time := BitVec 32

/-- The platform faces F0 to F3. -/
inductive Face where
  | f0 | f1 | f2 | f3
  deriving DecidableEq, Repr

/-- The marker units M1 to M4 of a face, at node addresses 33 to 36 (R160). -/
inductive Marker where
  | m1 | m2 | m3 | m4
  deriving DecidableEq, Repr

/-- One entry per face. -/
structure PerFace (α : Type) where
  f0 : α
  f1 : α
  f2 : α
  f3 : α
  deriving DecidableEq, Repr

/-- The entry of a face. -/
def PerFace.get {α : Type} (p : PerFace α) : Face → α
  | .f0 => p.f0
  | .f1 => p.f1
  | .f2 => p.f2
  | .f3 => p.f3

/-- The record with the entry of one face replaced. -/
def PerFace.set {α : Type} (p : PerFace α) (f : Face) (x : α) : PerFace α :=
  match f with
  | .f0 => { p with f0 := x }
  | .f1 => { p with f1 := x }
  | .f2 => { p with f2 := x }
  | .f3 => { p with f3 := x }

/-- The same entry for every face. -/
def PerFace.all {α : Type} (x : α) : PerFace α := ⟨x, x, x, x⟩

/-- One entry per marker unit. -/
structure PerMarker (α : Type) where
  m1 : α
  m2 : α
  m3 : α
  m4 : α
  deriving DecidableEq, Repr

/-- The entry of a marker unit. -/
def PerMarker.get {α : Type} (p : PerMarker α) : Marker → α
  | .m1 => p.m1
  | .m2 => p.m2
  | .m3 => p.m3
  | .m4 => p.m4

/-- The record with the entry of one marker unit replaced. -/
def PerMarker.set {α : Type} (p : PerMarker α) (k : Marker) (x : α) : PerMarker α :=
  match k with
  | .m1 => { p with m1 := x }
  | .m2 => { p with m2 := x }
  | .m3 => { p with m3 := x }
  | .m4 => { p with m4 := x }

/-- The same entry for every marker unit. -/
def PerMarker.all {α : Type} (x : α) : PerMarker α := ⟨x, x, x, x⟩

end Sys2Proof
end

