-- ==== Sys2Proof/Config.lean ====
section
/-! DEFINITION. What the BW460 fixes: capacities, ranges and bit times of the spec, and the free values where the spec
states no value. -/

namespace Sys2Proof.Config

/-- R102: the presence list holds at most 48 records. -/
def presenceCapacity : Nat := 48
/-- R122: the release list holds at most 32 records. -/
def releaseCapacity : Nat := 32
/-- R16: the profile table holds at most 16 profiles. -/
def profileCapacity : Nat := 16
/-- R18: the door pool has 512 entries. -/
def doorPool : Nat := 512
/-- R17: a door list holds at most 48 entries. -/
def doorListMax : Nat := 48
/-- R171: a poll list holds at most 48 entries. -/
def pollListMax : Nat := 48
/-- R9: a face holds bays 1 to 32. -/
def bayMax : Nat := 32
/-- R160: node addresses run to 36. -/
def nodeMax : Nat := 36
/-- R33: the answer queue of a train link holds at most 4 answers. -/
def answerCapacity : Nat := 4
/-- R32, R165: the saturating counters stop at 255. -/
def counterMax : Nat := 255
/-- R167: the link error count stays at 31 once it is there. -/
def errorMax : Nat := 31
/-- R167: a failure adds 3 to the error count. -/
def failureCost : Nat := 3
/-- R167: MARGINAL from 12. -/
def marginalAt : Nat := 12
/-- R167: LOST from 24. -/
def lostAt : Nat := 24
/-- R168: eight successes in a row restore a LOST node. -/
def recoveryRun : Nat := 8
/-- R72: the interleave count stays at 8. -/
def interleaveMax : Nat := 8
/-- R123: tags run from 1 to 255. -/
def tagMax : Nat := 255
/-- R201: a change is taken at the 20th consecutive sample. -/
def inputSamples : Nat := 20
/-- R32: a telegram's characters are at most 50 ms apart. -/
def telegramGap : Nat := 50
/-- 11, Train link: a character is 11 bit times, counted here in tenths. -/
def trainCharTenths : Nat := 110
/-- 11, Train link: at 9,600 bit/s a millisecond is 9.6 bit times, counted here in tenths. -/
def trainTenthsPerMs : Nat := 96
/-- R199: the opening character of a telegram. -/
def opening : Byte := 165#8
/-- R177: a break is 22 bit times. -/
def breakBits : Nat := 22
/-- R178: a preamble is 11 bit times. -/
def preambleBits : Nat := 11
/-- 11, Request frame: the data length is 0 to 1,024. -/
def frameDataMax : Nat := 1024
/-- R197: the port keeps at most 1,033 characters of a request frame. -/
def frameMax : Nat := 1033

/-- The answer to a malformed frame carries the class and key of a frame that may be too short to hold them, and R187
states no value for the missing characters: a free value, fresh at each use (log entry 11). -/
opaque absentFrameCharacter : Nat → Byte

end Sys2Proof.Config
end

