-- ==== Sys2Proof/Syntax.lean ====
section
/-! DEFINITION. The commands the BW460 takes: one constructor per row of spec/opcode_table.json, with the operands the
row leaves open. -/

namespace Sys2Proof

/-- The three key characters of a supervisory frame (11, Key characters). -/
structure Key where
  k1 : Byte
  k2 : Byte
  k3 : Byte
  deriving DecidableEq, Repr

/-- A train's direction of travel along the face axis. -/
inductive Direction where
  | up | down
  deriving DecidableEq, Repr

/-- The zone of a presence record: the beams or the edge contact. -/
inductive Zone where
  | gap | edge
  deriving DecidableEq, Repr

/-- The levels sampled at the input pins: true is asserted, ON or pressed (R201). -/
structure PinLevels where
  evac : Bool
  pkey : PerFace Bool
  popen : PerFace Bool
  pclose : PerFace Bool
  deriving DecidableEq, Repr

/-- Why a telegram was judged corrupt (R32, R199), as far as what follows it depends on the reason: an opening
character inside a telegram ends that telegram and starts a new one. -/
inductive CorruptCause where
  /-- Judged at its last character or at its kind character. -/
  | judged
  /-- Ended as incomplete by a new opening character, which starts a telegram. -/
  | newOpening
  deriving DecidableEq, Repr

/-- The commands of the part. Supervisory commands carry the characters of their request frame that the row does not
fix: the key, the field selector where several are admitted, the data, and the class character of an ORDER, which is
not examined (R191, R192). -/
inductive Instr where
  -- reset and the port
  | powerOnReset (pins : PinLevels)
  | fetch (clocked : Nat)
  | malformedFrame (chars : List Byte)
  | overrunDiscard (chars : List Byte)
  | unadmittedRequest (kind cls : Byte) (key : Key) (sel : Byte) (data : List Byte)
  -- the configuration store
  | lookupFace (key : Key) (data : List Byte)
  | lookupFaceMode (key : Key) (data : List Byte)
  | amendFace (key : Key) (sel : Byte) (data : List Byte)
  | lookupBay (key : Key) (data : List Byte)
  | enrolBay (key : Key) (data : List Byte)
  | amendBay (key : Key) (sel : Byte) (data : List Byte)
  | retireBay (key : Key) (data : List Byte)
  -- the profile table
  | lookupProfile (key : Key) (data : List Byte)
  | lookupProfileTable (key : Key) (data : List Byte)
  | enrolProfile (key : Key) (data : List Byte)
  | amendProfile (key : Key) (sel : Byte) (data : List Byte)
  | retireProfile (key : Key) (data : List Byte)
  -- berths, presence, releases
  | lookupBerth (key : Key) (data : List Byte)
  | retireBerth (key : Key) (data : List Byte)
  | lookupPresence (key : Key) (data : List Byte)
  | lookupPresenceList (key : Key) (data : List Byte)
  | lookupRelease (key : Key) (data : List Byte)
  | lookupReleaseList (key : Key) (data : List Byte)
  -- poll lists and nodes
  | lookupPollList (key : Key) (data : List Byte)
  | amendPollListRunning (key : Key) (data : List Byte)
  | amendPollListDiscipline (key : Key) (data : List Byte)
  | retirePollListRunning (key : Key) (data : List Byte)
  | retirePollListStaged (key : Key) (data : List Byte)
  | lookupNode (key : Key) (data : List Byte)
  | lookupSummary (key : Key) (data : List Byte)
  -- orders
  | setMode (cls : Byte) (key : Key) (data : List Byte)
  | isolateBay (cls : Byte) (key : Key) (data : List Byte)
  | restoreBay (cls : Byte) (key : Key) (data : List Byte)
  | openBay (cls : Byte) (key : Key) (data : List Byte)
  | closeBay (cls : Byte) (key : Key) (data : List Byte)
  | faceRelease (cls : Byte) (key : Key) (data : List Byte)
  | resetRelease (cls : Byte) (key : Key) (data : List Byte)
  | clearOverflow (cls : Byte) (key : Key) (data : List Byte)
  | freeze (cls : Byte) (key : Key) (data : List Byte)
  | unfreeze (cls : Byte) (key : Key) (data : List Byte)
  | lineEnable (cls : Byte) (key : Key) (data : List Byte)
  | lineDisable (cls : Byte) (key : Key) (data : List Byte)
  | stageList (cls : Byte) (key : Key) (data : List Byte)
  | passThrough (cls : Byte) (key : Key) (data : List Byte)
  | withdraw (cls : Byte) (key : Key) (data : List Byte)
  | restartFace (cls : Byte) (key : Key) (data : List Byte)
  | restartPart (cls : Byte) (key : Key) (data : List Byte)
  -- telegrams
  | arrive (f : Face) (train profile : Nat) (dir : Direction) (cars : Nat)
  | standstillYes (f : Face) (position : Option Nat)
  | standstillNo (f : Face) (position : Option Nat)
  | openRequest (f : Face)
  | closeRequest (f : Face)
  | emergencyReleaseOn (f : Face)
  | emergencyReleaseOff (f : Face)
  | depart (f : Face)
  | statusQuery (f : Face)
  | corruptTelegram (f : Face) (cause : CorruptCause)
  | telegramGapExpiry (f : Face)
  | trainAnswerSent (f : Face)
  -- timers
  | positionWaitExpiry (f : Face)
  | silenceDeadlineExpiry (f : Face)
  | unlockDeadlineExpiry (f : Face) (bay : Nat)
  | openDeadlineExpiry (f : Face) (bay : Nat)
  | closeDeadlineExpiry (f : Face) (bay : Nat)
  | warningDeadlineExpiry (f : Face) (bay : Nat)
  | clearHoldExpiry (f : Face) (bay : Nat) (zone : Zone)
  | modeTransitionExpiry (f : Face)
  -- inputs
  | evacAsserted
  | evacDeasserted
  | pkeyChange (f : Face) (on : Bool)
  | popenPress (f : Face)
  | pclosePress (f : Face)
  -- the bay line
  | headerEnd (f : Face)
  | responseComplete (f : Face) (chars : List Byte)
  | responseCharacterFault (f : Face) (stopBit marker : Bool)
  | transactionTimeout (f : Face)
  | strayCharacter (f : Face)
  | breakStart (f : Face)
  | breakEnd (f : Face)
  | preambleEnd (f : Face)
  -- supply
  | supplyLoss
  deriving DecidableEq, Repr

end Sys2Proof
end

