-- ==== Sys2Proof/WellFormed.lean ====
section
/-! DEFINITION. Well-formed commands: operands within what a frame, a telegram or a key can carry. -/

namespace Sys2Proof

/-- A request carries at most 1,024 data characters (11, Request frame). -/
def dataFits (data : List Byte) : Bool := decide (data.length ≤ Config.frameDataMax)

/-- A bay number (R9). -/
def bayFits (bay : Nat) : Bool := decide (1 ≤ bay ∧ bay ≤ Config.bayMax)

/-- A head position travels in three groups of seven bits (R199). -/
def positionFits : Option Nat → Bool
  | none => true
  | some p => decide (p < 2097152)

/-- The check of a command's operands. -/
def Instr.wellFormed : Instr → Bool
  | .malformedFrame chars => decide (chars ≠ []) && decide (chars.head? ≠ some 6#8)
  | .overrunDiscard chars => decide (chars ≠ []) && decide (chars.head? ≠ some 6#8)
  | .unadmittedRequest kind _ _ _ data => decide (1 ≤ kind.toNat ∧ kind.toNat ≤ 5) && dataFits data
  | .lookupFace _ data | .lookupFaceMode _ data | .amendFace _ _ data | .lookupBay _ data | .enrolBay _ data
  | .amendBay _ _ data | .retireBay _ data | .lookupProfile _ data | .lookupProfileTable _ data
  | .enrolProfile _ data | .amendProfile _ _ data | .retireProfile _ data | .lookupBerth _ data
  | .retireBerth _ data | .lookupPresence _ data | .lookupPresenceList _ data | .lookupRelease _ data
  | .lookupReleaseList _ data | .lookupPollList _ data | .amendPollListRunning _ data
  | .amendPollListDiscipline _ data | .retirePollListRunning _ data | .retirePollListStaged _ data
  | .lookupNode _ data | .lookupSummary _ data => dataFits data
  | .setMode _ _ data | .isolateBay _ _ data | .restoreBay _ _ data | .openBay _ _ data | .closeBay _ _ data
  | .faceRelease _ _ data | .resetRelease _ _ data | .clearOverflow _ _ data | .freeze _ _ data
  | .unfreeze _ _ data | .lineEnable _ _ data | .lineDisable _ _ data | .stageList _ _ data
  | .passThrough _ _ data | .withdraw _ _ data | .restartFace _ _ data | .restartPart _ _ data => dataFits data
  | .arrive _ train profile _ cars => decide (train < 2097152) && decide (profile < 16384) && decide (cars < 128)
  | .standstillYes _ p | .standstillNo _ p => positionFits p
  | .unlockDeadlineExpiry _ b | .openDeadlineExpiry _ b | .closeDeadlineExpiry _ b | .warningDeadlineExpiry _ b
  | .clearHoldExpiry _ b _ => bayFits b
  | .responseComplete _ chars => decide (1 ≤ chars.length ∧ chars.length ≤ 7)
  | .responseCharacterFault _ stopBit marker => !stopBit || marker
  | .powerOnReset _ | .fetch _ | .openRequest _ | .closeRequest _ | .emergencyReleaseOn _ | .emergencyReleaseOff _
  | .depart _ | .statusQuery _ | .corruptTelegram _ _ | .telegramGapExpiry _ | .trainAnswerSent _
  | .positionWaitExpiry _ | .silenceDeadlineExpiry _ | .modeTransitionExpiry _ | .evacAsserted | .evacDeasserted
  | .pkeyChange _ _ | .popenPress _ | .pclosePress _ | .headerEnd _ | .transactionTimeout _ | .strayCharacter _
  | .breakStart _ | .breakEnd _ | .preambleEnd _ | .supplyLoss => true

end Sys2Proof
end

