-- ==== Sys2Proof/Decode.lean ====
section
/-! DEFINITION. The commands spelled by a table word: none, since no row of spec/opcode_table.json gives bits. What
crosses the pins is judged in Sys2Proof/Machine/Frames.lean. -/

namespace Sys2Proof

/-- The command that a word spells by the table's bits: the table gives bits to no row. -/
def decodeTableWord (_nbits _w : Nat) : Option Instr := none

end Sys2Proof
end

