-- ==== Sys2Proof/Machine/State.lean ====
section
/-! DEFINITION. The state of the BW460 as plain data, and its value right after power-on reset. -/

namespace Sys2Proof.Machine

/-! ### Configuration store (chapter 1) -/

/-- The rate codes of a bay line (01, Face configuration record). -/
inductive Rate where
  | r19200 | r38400 | r57600 | r115200
  deriving DecidableEq, Repr

/-- The arbiter disciplines (R175). -/
inductive ArbiterDiscipline where
  | fixed | rotate
  deriving DecidableEq, Repr

/-- The request classes that the arbiter orders (R174); COMMAND always comes first. -/
inductive PollClass where
  | marker | list | pass
  deriving DecidableEq, Repr

/-- What DS does with a bay whose node enters LOST (R79). -/
inductive LostAction where
  | report | isolate
  deriving DecidableEq, Repr

/-- The face configuration record (01, Face configuration record). `configured` is the presence of `lf` (R3). -/
structure FaceConfig where
  lf : Option Nat
  /-- Stop marks UP for 1 to 10 cars, in order. -/
  marksUp : Vector (Option Nat) 10
  /-- Stop marks DOWN for 1 to 10 cars, in order. -/
  marksDown : Vector (Option Nat) 10
  minPassage : Nat
  tFine : Nat
  tCoarse : Nat
  agreement : Nat
  nMin : Nat
  readingAge : Nat
  positionWait : Nat
  unlockLimit : Nat
  openLimit : Nat
  /-- The staged warning duration (R7). -/
  warning : Nat
  closeLimit : Nat
  reopenLimit : Nat
  clearHold : Nat
  entrapment : Nat
  silence : Nat
  modeTransition : Nat
  rate : Rate
  turnaround : Nat
  interleave : Nat
  arbiter : ArbiterDiscipline
  lowest : PollClass
  lostAction : LostAction
  deriving DecidableEq, Repr

/-- R1: the power-on values of the face configuration record. -/
def FaceConfig.powerOn : FaceConfig where
  lf := none
  marksUp := ⟨#[none, none, none, none, none, none, none, none, none, none], rfl⟩
  marksDown := ⟨#[none, none, none, none, none, none, none, none, none, none], rfl⟩
  minPassage := 800
  tFine := 300
  tCoarse := 1000
  agreement := 100
  nMin := 2
  readingAge := 1000
  positionWait := 3000
  unlockLimit := 1500
  openLimit := 4000
  warning := 2500
  closeLimit := 5000
  reopenLimit := 3
  clearHold := 600
  entrapment := 15000
  silence := 5000
  modeTransition := 30000
  rate := .r38400
  turnaround := 20
  interleave := 4
  arbiter := .rotate
  lowest := .pass
  lostAction := .report

/-! ### Bays (chapters 1 and 5) -/

/-- The states of a bay (01, Dynamic fields). -/
inductive BayState where
  | unknown | closedLocked | unlocking | opening | open | warning | closing | reopening | heldOpen | released
  | faulted | isolated
  deriving DecidableEq, Repr

/-- The kinds of a bay's deadline. -/
inductive DeadlineKind where
  | unlock | open | close | warning
  deriving DecidableEq, Repr

/-- The one timer a bay has armed. `due` is absent for a deadline armed suspended (R98). -/
structure BayDeadline where
  kind : DeadlineKind
  due : Option Time
  suspended : Bool
  deriving DecidableEq, Repr

/-- Door positions of a bay report (R77). -/
inductive DoorPosition where
  | fullyClosed | movingOpen | fullyOpen | movingClosed | stoppedBetween
  deriving DecidableEq, Repr

/-- A bay report: what a bay STATUS response says of door, lock and motor (R77). -/
structure BayReport where
  position : DoorPosition
  locked : Bool
  motorFault : Bool
  deriving DecidableEq, Repr

/-- The last report of a bay; `beforeLoss` marks one dated before a link loss (R13). -/
structure StoredReport where
  report : BayReport
  beforeLoss : Bool
  deriving DecidableEq, Repr

/-- The commands a bay unit takes (R76). -/
inductive DoorCommand where
  | open | close | hold
  deriving DecidableEq, Repr

/-- A bay record: static fields (R9), dynamic fields owned by DS (01, Dynamic fields; 05), GM's overflow mark (R102) and
RM's handle states (R124; true is OPERATED). -/
structure Bay where
  num : Nat
  centre : Nat
  width : Nat
  state : BayState
  isolated : Bool
  lockConfirmed : Bool
  reopens : Nat
  deadline : Option BayDeadline
  liveWarning : Option Nat
  lastReport : Option StoredReport
  lastCommand : Option DoorCommand
  restorePending : Bool
  overflow : Bool
  platformHandle : Bool
  trackHandle : Bool
  deriving DecidableEq, Repr

/-! ### Profiles (chapter 2) -/

/-- A door-list entry (R17). -/
structure Door where
  car : Nat
  offset : Nat
  width : Nat
  deriving DecidableEq, Repr

/-- A profile record (R16); `q` is the detection offset. -/
structure Profile where
  code : Nat
  cars : Nat
  q : Nat
  doors : List Door
  refs : Nat
  deriving DecidableEq, Repr

/-! ### Berths and the train link (chapter 3) -/

/-- The berth states, VACANT 0 to SECURED 7 (R199). -/
inductive BerthState where
  | vacant | announced | standing | aligned | reposition | openService | closing | secured
  deriving DecidableEq, Repr

/-- The qualities of an alignment (R65, R68). -/
inductive Quality where
  | full | offset | split
  deriving DecidableEq, Repr

/-- The reposition causes (03, The berth record). -/
inductive RepositionCause where
  | overrun | underrun | noMatch | noPosition
  deriving DecidableEq, Repr

/-- The alignment snapshot (R70). `mask` and `doors` are sets, held in ascending order. -/
structure Snapshot where
  hUsed : Int
  stopError : Int
  quality : Quality
  mask : List Nat
  doors : List Nat
  deriving DecidableEq, Repr

/-- The berth record (03, The berth record). -/
structure Berth where
  state : BerthState
  train : Option Nat
  profile : Option Nat
  dir : Option Direction
  cars : Option Nat
  standstill : Bool
  ht : Option Nat
  snapshot : Option Snapshot
  cause : Option RepositionCause
  refusedError : Option Int
  moved : Bool
  positionWait : Option Time
  lastTelegram : Option Time
  silence : Option Time
  silent : Bool
  corrupt : Nat
  dropped : Nat
  deriving DecidableEq, Repr

/-- R30: the berth record at power-on reset and after a restart. -/
def Berth.powerOn : Berth where
  state := .vacant
  train := none
  profile := none
  dir := none
  cars := none
  standstill := false
  ht := none
  snapshot := none
  cause := none
  refusedError := none
  moved := false
  positionWait := none
  lastTelegram := none
  silence := none
  silent := false
  corrupt := 0
  dropped := 0

/-- A character as it arrives on a train link: its value, whether its parity is right, and its stop bit (11, Train
link). -/
structure TrainChar where
  value : Byte
  parityOk : Bool
  stopBit : Bool
  deriving DecidableEq, Repr

/-- The receiver's partial telegram: the characters collected and the time the last of them arrived (R30, R32). -/
structure PartialTelegram where
  chars : List TrainChar
  lastAt : Time
  deriving DecidableEq, Repr

/-- The train link of a face: the receiver and the answers waiting for TLTX, the one being sent first (R33). -/
structure TrainLink where
  receiving : Option PartialTelegram
  answers : List (List Byte)
  deriving DecidableEq, Repr

/-- The transmitter on TLTX (R33, R200): how long what it sends has been going out, in tenths of a bit time, and, of an
answer that a restart has cut, the characters up to the one in progress (R30). -/
structure TrainTransmitter where
  elapsed : Nat
  cut : Option (List Byte)
  deriving DecidableEq, Repr

/-- A transmitter with nothing to send. -/
def TrainTransmitter.idle : TrainTransmitter := ⟨0, none⟩

/-! ### Alignment (chapter 4) -/

/-- A marker reading (04, Marker readings). -/
structure Reading where
  seen : Bool
  position : Nat
  takenAt : Time
  deriving DecidableEq, Repr

/-- The fusion result: `head` is present when CONFIRMED (R59 to R61). -/
structure Fusion where
  head : Option Int
  n : Nat
  m : Nat
  at? : Option Time
  deriving DecidableEq, Repr

/-- AU's state of a face (R56). -/
structure Alignment where
  readings : PerMarker (Option Reading)
  fusion : Fusion
  interleaveCount : Nat
  nextMarker : Marker
  markerRequest : Bool
  deriving DecidableEq, Repr

/-- R56: AU's state of a face after each reset. -/
def Alignment.powerOn : Alignment where
  readings := .all none
  fusion := ⟨none, 0, 0, none⟩
  interleaveCount := 0
  nextMarker := .m1
  markerRequest := false

/-! ### Presence (chapter 6) -/

/-- The states of a presence record. -/
inductive PresenceState where
  | suspect | occupied | clearing
  deriving DecidableEq, Repr

/-- A clear-hold deadline, which a link loss may hold suspended (R115). -/
structure ClearHold where
  due : Time
  suspended : Bool
  deriving DecidableEq, Repr

/-- A presence record (06, The presence list). `beams` is the beam union, bit k - 1 for beam k, absent for EDGE. -/
structure Presence where
  face : Face
  bay : Nat
  zone : Zone
  state : PresenceState
  onset : Time
  beams : Option (BitVec 4)
  lastSeen : Time
  clearSince : Option Time
  clearHold : Option ClearHold
  reported : Bool
  deriving DecidableEq, Repr

/-! ### Releases (chapter 7) -/

/-- The key of a release record: its source with the face and the bay of its scope (R122). -/
inductive ReleaseKey where
  | platformHandle (f : Face) (bay : Nat)
  | trackHandle (f : Face) (bay : Nat)
  | trainRequest (f : Face)
  | supervisor (f : Face)
  | stationEvac
  deriving DecidableEq, Repr

/-- A release record (07, The release list). -/
structure Release where
  tag : Nat
  key : ReleaseKey
  active : Bool
  onset : Time
  quiescentSince : Option Time
  deriving DecidableEq, Repr

/-! ### Face interlock (chapter 8) -/

/-- The face modes, in the order of the interlock record. -/
inductive Mode where
  | starting | normal | manual | evacuation | maintenance
  deriving DecidableEq, Repr

/-- A pending request for MAINTENANCE with its mode transition deadline (R144). -/
structure ModeRequest where
  takenAt : Time
  due : Time
  deriving DecidableEq, Repr

/-- FI's copies of the six proving conditions (R153, R154). -/
structure Conditions where
  mode : Bool
  secure : Bool
  noPresence : Bool
  noRelease : Bool
  line : Bool
  nodes : Bool
  deriving DecidableEq, Repr

/-- The interlock record (08, The interlock record). -/
structure Interlock where
  mode : Mode
  stored : Option Mode
  request : Option ModeRequest
  censusPass : Bool
  keyOn : Bool
  proving : Bool
  conditions : Conditions
  deriving DecidableEq, Repr

/-- An input pin: the level at the pin, the level last taken, and the run of consecutive samples at the other level
(R201). -/
structure InputPin where
  pin : Bool
  taken : Bool
  run : Nat
  deriving DecidableEq, Repr

/-! ### Bay line (chapter 9) -/

/-- What the BLC sends other than a header (09, line state). -/
inductive LineSignal where
  | none | break | preamble
  deriving DecidableEq, Repr

/-- The function codes of headers (11, Function codes). -/
inductive LineFunction where
  | status | ident | open | close | hold
  deriving DecidableEq, Repr

/-- The four classes of transactions (R174). -/
inductive TxClass where
  | command | marker | list | pass
  deriving DecidableEq, Repr

/-- A character as it crosses a bay line: what the BLC takes from it (R159). -/
structure LineChar where
  value : Byte
  marker : Bool
  stopBit : Bool
  deriving DecidableEq, Repr

/-- An open response window: when it opened, and the timeout in bit times after that (R162, R163). -/
structure Window where
  openedAt : Time
  limit : Nat
  deriving DecidableEq, Repr

/-- A window still open after its transaction's outcome was decided: `arrived` characters of it have come, and it closes
at the `size`-th, the (R + 1)th. They belong to the discarded response, and only their number is kept (R162). -/
structure LateWindow where
  window : Window
  size : Nat
  arrived : Nat
  deriving DecidableEq, Repr

/-- The transaction in flight. The window is absent while the header is being sent; `received` holds the characters that
the receiver has collected in it. `inPass` is no when the pass of a LIST transaction has been ended by LINE_DISABLE (R181). -/
structure Transaction where
  cls : TxClass
  address : Nat
  function : LineFunction
  bays : List Nat
  header : List Byte
  window : Option Window
  received : List Byte
  inPass : Bool
  deriving DecidableEq, Repr

/-- The functions a poll-list entry may name (R171). -/
inductive PollFunction where
  | status | ident
  deriving DecidableEq, Repr

/-- A poll-list entry. -/
structure PollEntry where
  address : Nat
  function : PollFunction
  deriving DecidableEq, Repr

/-- The disciplines of a poll list (R173). -/
inductive ListDiscipline where
  | repeat | chain
  deriving DecidableEq, Repr

/-- A poll list with its discipline. -/
structure PollList where
  entries : List PollEntry
  discipline : ListDiscipline
  deriving DecidableEq, Repr

/-- An entry of the command queue (R174). -/
structure QueuedCommand where
  bay : Nat
  command : DoorCommand
  deriving DecidableEq, Repr

/-- The outcomes of a transaction (R164). -/
inductive TxOutcome where
  | success | timeout | framing | check | length | abandoned
  deriving DecidableEq, Repr

/-- The pass slot (R182). -/
inductive PassSlot where
  | empty
  | waiting (request : PollEntry)
  | inFlight (request : PollEntry)
  | ended (request : PollEntry) (outcome : TxOutcome) (data : List Byte)
  deriving DecidableEq, Repr

/-- The link states of a node (R167). -/
inductive LinkState where
  | linked | marginal | lost
  deriving DecidableEq, Repr

/-- The last outcome of a node, with its time (R164). -/
structure LastOutcome where
  outcome : TxOutcome
  time : Time
  deriving DecidableEq, Repr

/-- A node record (09, Link health). -/
structure Node where
  errors : Nat
  link : LinkState
  run : Nat
  last : Option LastOutcome
  identity : Option (List Byte)
  deriving DecidableEq, Repr

/-- R184: a node record at power-on reset. -/
def Node.powerOn : Node := ⟨0, .linked, 0, none, none⟩

/-- The line state of a face (09). `late` is a window still open after its transaction's outcome was decided (R162);
`breakOwed` is a break that a restart found pending and that is still sent whole (R184); `preambleDue` is a preamble
owed to a LINE_ENABLE or a restart (R178, R180); `abandoning` says that a restart has taken effect and abandons the
transaction in flight at the end of the character in progress (R184). -/
structure Line where
  enabled : Bool
  stopping : Bool
  frozen : Bool
  signal : LineSignal
  breakPending : Bool
  breakOwed : Bool
  preambleDue : Bool
  abandoning : Bool
  tx : Option Transaction
  late : Option LateWindow
  running : Option PollList
  staged : Option PollList
  position : Nat
  starved : Bool
  queue : List QueuedCommand
  rotation : List PollClass
  passSlot : PassSlot
  stray : Nat
  rate : Rate
  nodes : Vector Node 36
  deriving DecidableEq, Repr

/-- R184: the line state at power-on reset. The rate in force before the first LINE_ENABLE is DESIGN CHOICE
(log entry 7). -/
def Line.powerOn : Line where
  enabled := false
  stopping := false
  frozen := false
  signal := .none
  breakPending := false
  breakOwed := false
  preambleDue := false
  abandoning := false
  tx := none
  late := none
  running := none
  staged := none
  position := 1
  starved := false
  queue := []
  rotation := [.marker, .list, .pass]
  passSlot := .empty
  stray := 0
  rate := .r38400
  nodes := ⟨(List.replicate 36 Node.powerOn).toArray, by simp⟩

/-! ### Supervisory port (chapter 10) -/

/-- The kinds of attention, in the order of the attention table (10, Attention). -/
inductive Attn where
  | berthChange | maskPartial | trainMoved | departUnannounced | unsafeDepart | trainLinkSilent
  | presenceNew | presenceOverflow | entrapment | tracksidePresence
  | releaseNew | releaseQuiescent | releaseOverflow | tracksideRelease
  | reopenLimit | motionFault | linkMarginal | linkLost | stageTaken | chainStarved
  | modeDone | modeAbandoned | panelRefused | provingChange
  deriving DecidableEq, Repr

/-- The answer codes, DONE 0 to BAD_REQUEST 11 (11, Answer frame). -/
inductive AnswerCode where
  | done | clamped | noRecord | noSpace | inUse | wrongMode | outOfRange | conflict | notQuiescent | abandoned | late
  | badRequest
  deriving DecidableEq, Repr

/-- A request frame, without its data length and its check (11, Request frame). -/
structure Request where
  kind : Byte
  cls : Byte
  key : Key
  sel : Byte
  data : List Byte
  deriving DecidableEq, Repr

/-- An answer frame, without its overrun item, data length and check (11, Answer frame). -/
structure Answer where
  kind : Byte
  cls : Byte
  key : Key
  code : AnswerCode
  data : List Byte
  deriving DecidableEq, Repr

/-- The port states (10). -/
inductive PortState where
  | idle | working | answerReady
  deriving DecidableEq, Repr

/-- R186, R189: what the fall of SVCS fixes for an exchange: the status character, and in ANSWER_READY the characters of
the answer frame. -/
structure ExchangeStart where
  status : Byte
  frame : Option (List Byte)
  deriving DecidableEq, Repr

/-- R186: an exchange in progress, SVCS low: what its fall fixed, the bits taken from SVDI at the rising edges of SVCK, and
the number of falling edges. -/
structure Exchange where
  start : ExchangeStart
  taken : List Bool
  falls : Nat
  deriving DecidableEq, Repr

/-- The supervisory port (10). `svdo` holds the characters it sent in the last exchange. `exchange` is the exchange in
progress, and `begun` holds what the fall of SVCS fixed for the exchange that has ended and whose command waits in the
queue (log entry 31). -/
structure Port where
  state : PortState
  request : Option Request
  answer : Option Answer
  overrun : Bool
  svdo : List Byte
  exchange : Option Exchange
  begun : Option ExchangeStart
  deriving DecidableEq, Repr

/-! ### The whole part -/

/-- What the part keeps per face. `tlrx` and `blrx` hold the characters that have arrived at the receivers' pins and
wait to be taken; the environment lays them there (log entry 17). -/
structure FaceState where
  config : FaceConfig
  bays : List Bay
  berth : Berth
  link : TrainLink
  tlrx : List TrainChar
  tltx : TrainTransmitter
  au : Alignment
  fi : Interlock
  popen : InputPin
  pclose : InputPin
  pkey : InputPin
  line : Line
  blrx : List LineChar
  releaseOverflow : Bool
  attn : BitVec 24
  deriving DecidableEq, Repr

/-- The state of the BW460 with the queue of waiting commands. `powered` says that the part has supply and is out of
reset; `resetHeld` that POR is held low (R201). -/
structure State where
  powered : Bool
  resetHeld : Bool
  now : Time
  evac : InputPin
  profiles : List Profile
  freePool : Nat
  presence : List Presence
  releases : List Release
  nextTag : Nat
  port : Port
  partAttn : Bool
  freeCount : Nat
  faces : PerFace FaceState
  pending : List Instr
  deriving DecidableEq, Repr

/-- No fault: the spec stops the part for nothing, and nobody raises one. -/
inductive Fault where
  deriving DecidableEq, Repr

/-- Why a step has no answer. -/
inductive Refusal where
  /-- Raised by the dispatch for a command without a meaning; safe: the model stops. No arm raises it. -/
  | notModelled (mnemonic : String)
  deriving DecidableEq, Repr

/-- R155: a proving condition holds as the state just after power-on reset gives it. -/
def Conditions.powerOn : Conditions := ⟨false, true, true, true, false, true⟩

/-- An input pin whose level at the end of power-on reset is `level` (R201). -/
def InputPin.start (level : Bool) : InputPin := ⟨level, level, 0⟩

/-- A face right after power-on reset, with the levels its inputs start from. -/
def FaceState.powerOn (key open_ close : Bool) : FaceState where
  config := .powerOn
  bays := []
  berth := .powerOn
  link := ⟨none, []⟩
  tlrx := []
  tltx := .idle
  au := .powerOn
  fi := { mode := .starting, stored := none, request := none, censusPass := false, keyOn := key, proving := false,
          conditions := .powerOn }
  popen := .start open_
  pclose := .start close
  pkey := .start key
  line := .powerOn
  blrx := []
  releaseOverflow := false
  attn := 0#24

/-- The part right after power-on reset, before an asserted EVAC acts (R1, R16, R30, R56, R103, R124, R155, R184, R195),
with the given levels at its inputs and the given queue. -/
def State.powerOn (pins : PinLevels) (pending : List Instr) : State where
  powered := true
  resetHeld := false
  now := 0#32
  evac := .start pins.evac
  profiles := []
  freePool := 512
  presence := []
  releases := []
  nextTag := 1
  port := { state := .idle, request := none, answer := none, overrun := false, svdo := []
            exchange := none, begun := none }
  partAttn := false
  freeCount := 0
  faces :=
    { f0 := .powerOn pins.pkey.f0 pins.popen.f0 pins.pclose.f0
      f1 := .powerOn pins.pkey.f1 pins.popen.f1 pins.pclose.f1
      f2 := .powerOn pins.pkey.f2 pins.popen.f2 pins.pclose.f2
      f3 := .powerOn pins.pkey.f3 pins.popen.f3 pins.pclose.f3 }
  pending := pending

/-- The part right after power-on reset, no command waiting. The levels at the inputs are the environment's: EVAC
deasserted, keys OFF, buttons not pressed are DESIGN CHOICE (log entry 6). -/
def State.reset : State :=
  .powerOn { evac := false, pkey := .all false, popen := .all false, pclose := .all false } []

end Sys2Proof.Machine
end

