-- ==== Sys2Proof/Machine/Ops.lean ====
section
/-! DEFINITION. The named operations over the state's records that every block shares: reading and writing a face and
its parts, the time base, the attention sets, bays, nodes and bounded counters. -/

namespace Sys2Proof.Machine

/-! ### Faces and their parts -/

/-- The four faces in order. -/
def allFaces : List Face := [.f0, .f1, .f2, .f3]

/-- What the part keeps of a face. -/
def State.face (s : State) (f : Face) : FaceState := s.faces.get f

/-- The state with one face changed. -/
def State.modFace (s : State) (f : Face) (g : FaceState → FaceState) : State :=
  { s with faces := s.faces.set f (g (s.faces.get f)) }

/-- The state with one face's configuration record changed. -/
def State.modConfig (s : State) (f : Face) (g : FaceConfig → FaceConfig) : State :=
  s.modFace f fun x => { x with config := g x.config }

/-- The state with one face's bay records changed. -/
def State.modBays (s : State) (f : Face) (g : List Bay → List Bay) : State :=
  s.modFace f fun x => { x with bays := g x.bays }

/-- The state with one berth record changed. -/
def State.modBerth (s : State) (f : Face) (g : Berth → Berth) : State :=
  s.modFace f fun x => { x with berth := g x.berth }

/-- The state with one train link changed. -/
def State.modLink (s : State) (f : Face) (g : TrainLink → TrainLink) : State :=
  s.modFace f fun x => { x with link := g x.link }

/-- The state with one face's AU state changed. -/
def State.modAu (s : State) (f : Face) (g : Alignment → Alignment) : State :=
  s.modFace f fun x => { x with au := g x.au }

/-- The state with one interlock record changed. -/
def State.modFi (s : State) (f : Face) (g : Interlock → Interlock) : State :=
  s.modFace f fun x => { x with fi := g x.fi }

/-- The state with one face's line state changed. -/
def State.modLine (s : State) (f : Face) (g : Line → Line) : State :=
  s.modFace f fun x => { x with line := g x.line }

/-- An operation made for each item of a list, in order. -/
def forEach {α : Type} (xs : List α) (op : α → State → State) (s : State) : State :=
  xs.foldl (fun t x => op x t) s

/-! ### The time base -/

/-- The time base value `ms` milliseconds after the present (00_scope, Quantities: modulo 2^32). -/
def State.after (s : State) (ms : Nat) : Time := s.now + BitVec.ofNat 32 ms

/-- The age of a time base value, modulo 2^32. -/
def State.age (s : State) (t : Time) : Nat := (s.now - t).toNat

/-- A deadline has been reached: the present lies less than half the wrap period after it (00_scope: every timer is far
shorter than the wrap period). -/
def State.reached (s : State) (due : Time) : Bool := decide ((s.now - due).toNat < 2147483648)

/-! ### Attention -/

/-- The place of a kind in the attention table (R194, R197). -/
def Attn.index : Attn → Nat
  | .berthChange => 0 | .maskPartial => 1 | .trainMoved => 2 | .departUnannounced => 3 | .unsafeDepart => 4
  | .trainLinkSilent => 5 | .presenceNew => 6 | .presenceOverflow => 7 | .entrapment => 8 | .tracksidePresence => 9
  | .releaseNew => 10 | .releaseQuiescent => 11 | .releaseOverflow => 12 | .tracksideRelease => 13
  | .reopenLimit => 14 | .motionFault => 15 | .linkMarginal => 16 | .linkLost => 17 | .stageTaken => 18
  | .chainStarved => 19 | .modeDone => 20 | .modeAbandoned => 21 | .panelRefused => 22 | .provingChange => 23

/-- The attention set that holds one kind. -/
def Attn.bit (k : Attn) : BitVec 24 := 1#24 <<< k.index

/-- R193: a kind is added to a face's attention set; a kind already there stays once. -/
def State.latch (s : State) (f : Face) (k : Attn) : State :=
  s.modFace f fun x => { x with attn := x.attn ||| k.bit }

/-- R193: a face's attention set holds a kind. -/
def State.latched (s : State) (f : Face) (k : Attn) : Bool := (s.face f).attn.getLsbD k.index

/-! ### Bays -/

/-- The record of an enrolled bay. -/
def State.bay? (s : State) (f : Face) (b : Nat) : Option Bay := (s.face f).bays.find? fun x => x.num == b

/-- The state with the record of one bay changed. -/
def State.modBay (s : State) (f : Face) (b : Nat) (g : Bay → Bay) : State :=
  s.modBays f fun xs => xs.map fun x => if x.num == b then g x else x

/-- The bay numbers enrolled on a face, ascending (R9). -/
def State.bayNums (s : State) (f : Face) : List Nat := (s.face f).bays.map Bay.num

/-- The mask of a face's berth, empty without a snapshot (R70). -/
def State.mask (s : State) (f : Face) : List Nat :=
  match (s.face f).berth.snapshot with
  | none => []
  | some q => q.mask

/-- The face is in MAINTENANCE. -/
def State.maintenance (s : State) (f : Face) : Bool := (s.face f).fi.mode == .maintenance

/-! ### Nodes and markers -/

/-- The node record of address 1 to 36; an address outside those has none and reads as untouched. -/
def Line.node (l : Line) (a : Nat) : Node := (l.nodes[a - 1]?).getD Node.powerOn

/-- The line state with the node record of address 1 to 36 replaced. -/
def Line.setNode (l : Line) (a : Nat) (n : Node) : Line := { l with nodes := l.nodes.setIfInBounds (a - 1) n }

/-- The node address of a marker unit (R160). -/
def markerAddress : Marker → Nat
  | .m1 => 33 | .m2 => 34 | .m3 => 35 | .m4 => 36

/-- The marker unit at a node address (R160). -/
def markerAt? : Nat → Option Marker
  | 33 => some .m1 | 34 => some .m2 | 35 => some .m3 | 36 => some .m4 | _ => none

/-- The cyclic order M1, M2, M3, M4 (R73, R74). -/
def markerNext : Marker → Marker
  | .m1 => .m2 | .m2 => .m3 | .m3 => .m4 | .m4 => .m1

/-! ### Bounded counters -/

/-- A counter raised by 1 that stays at its upper end (R32, R33, R165). -/
def saturate (limit n : Nat) : Nat := if n < limit then n + 1 else limit

/-- The saturating 8-bit counters. -/
def bump (n : Nat) : Nat := saturate Config.counterMax n

/-! ### Supply -/

/-- A command's effect on a part with supply; without supply the part does nothing until power-on reset (R201, log
entry 5). -/
def live (s : State) (effect : State → State) : Host.Outcome State Fault Refusal :=
  .next (if s.powered then effect s else s)

/-- A command the part cannot stop at: the effect as it stands, supply or none (POWER_ON_RESET, SUPPLY_LOSS). -/
def always (s : State) (effect : State → State) : Host.Outcome State Fault Refusal := .next (effect s)

end Sys2Proof.Machine
end

