-- ==== Sys2Proof/Machine/Operands.lean ====
section
/-! DEFINITION. How values are coded in the characters that cross the pins: numbers, enumerations, optional fields, lists
and sets in supervisory frames (R197), headers and responses of the bay line (R161, R198), answers on the train link
(R199), and the checks of all three. -/

namespace Sys2Proof.Machine

/-! ### Supervisory data (R197) -/

/-- A character of a value below 256. -/
def chr (n : Nat) : Byte := BitVec.ofNat 8 n

/-- A number: four characters, most significant first. -/
def num (n : Nat) : List Byte := [chr (n / 16777216), chr (n / 65536), chr (n / 256), chr n]

/-- A signed number: two's complement in four characters. -/
def snum (n : Int) : List Byte := num (BitVec.ofInt 32 n).toNat

/-- A time base value. -/
def timeNum (t : Time) : List Byte := num t.toNat

/-- A yes/no item: its values count from 0 in the order "yes / no" (log entry 12). -/
def yesNo (b : Bool) : List Byte := [if b then 0#8 else 1#8]

/-- An optional field: a presence character, and the value where it is present. -/
def optional {α : Type} (enc : α → List Byte) : Option α → List Byte
  | none => [0#8]
  | some x => 1#8 :: enc x

/-- A list: a count character and the entries in list order. -/
def listOf {α : Type} (enc : α → List Byte) (xs : List α) : List Byte := chr xs.length :: (xs.map enc).flatten

/-- The value of a set's character: bit `i` is set when `first + i` is in the set, for `width` bits. -/
def setChar (width first : Nat) (xs : List Nat) : Byte :=
  chr (((List.range width).map fun i => if xs.contains (first + i) then 2 ^ i else 0).sum)

/-- A set of bay numbers: four characters, bit b - 1 for bay b. -/
def baySet (xs : List Nat) : List Byte := (List.range 4).map fun k => setChar 8 (8 * k + 1) xs

/-- A set of door indices: six characters on the same pattern. -/
def doorSet (xs : List Nat) : List Byte := (List.range 6).map fun k => setChar 8 (8 * k + 1) xs

/-- An attention set: three characters, one bit per kind in the order of the attention table. -/
def attnSet (a : BitVec 24) : List Byte := [a.extractLsb' 0 8, a.extractLsb' 8 8, a.extractLsb' 16 8]

/-- The value of a number's four characters. -/
def numOf (a b c d : Byte) : Nat := a.toNat * 16777216 + b.toNat * 65536 + c.toNat * 256 + d.toNat

/-- The data of a request that carries one number. -/
def readNum : List Byte → Option Nat
  | [a, b, c, d] => some (numOf a b c d)
  | _ => none

/-- The data of a request that carries one optional number. -/
def readOptionalNum : List Byte → Option (Option Nat)
  | [p] => if p = 0#8 then some none else none
  | [p, a, b, c, d] => if p = 1#8 then some (some (numOf a b c d)) else none
  | _ => none

/-- The data of a request that carries one enumeration. -/
def readEnum : List Byte → Option Nat
  | [a] => some a.toNat
  | _ => none

/-- The data of a request that carries two numbers. -/
def readTwoNums : List Byte → Option (Nat × Nat)
  | [a, b, c, d, e, f, g, h] => some (numOf a b c d, numOf e f g h)
  | _ => none

/-- The entries of a door list: car number, offset, width (R197). -/
def readDoors : Nat → List Byte → Option (List Door)
  | 0, [] => some []
  | n + 1, car :: a :: b :: c :: d :: e :: f :: g :: h :: rest =>
      (readDoors n rest).map fun ds => ⟨car.toNat, numOf a b c d, numOf e f g h⟩ :: ds
  | _, _ => none

/-- A door list with its count character. -/
def readDoorList : List Byte → Option (List Door)
  | [] => none
  | n :: rest => readDoors n.toNat rest

/-- The data of an ENROL PROFILE: car count, q and the door list (R19). -/
def readProfile : List Byte → Option (Nat × Nat × List Door)
  | a :: b :: c :: d :: e :: f :: g :: h :: rest =>
      (readDoorList rest).map fun ds => (numOf a b c d, numOf e f g h, ds)
  | _ => none

/-- The entries of a poll list as coded, with the characters left over: address and function. -/
def readPollEntries : Nat → List Byte → Option (List (Nat × Nat) × List Byte)
  | 0, rest => some ([], rest)
  | n + 1, a :: f :: rest => (readPollEntries n rest).map fun r => ((a.toNat, f.toNat) :: r.1, r.2)
  | _, _ => none

/-- The data of a request that carries a whole poll list: the entries, then the discipline. -/
def readPollList : List Byte → Option (List (Nat × Nat) × Nat)
  | [] => none
  | n :: rest =>
      match readPollEntries n.toNat rest with
      | some (es, [d]) => some (es, d.toNat)
      | _ => none

/-- A function code of a poll-list entry, STATUS 0 or IDENT 1. -/
def pollFunctionOf : Nat → Option PollFunction
  | 0 => some .status
  | 1 => some .ident
  | _ => none

/-- A discipline of a poll list, REPEAT 0 or CHAIN 1. -/
def disciplineOf : Nat → Option ListDiscipline
  | 0 => some .repeat
  | 1 => some .chain
  | _ => none

/-- R171: a coded poll-list entry with an address in 1 to 36 and a function. -/
def pollEntryOf (e : Nat × Nat) : Option PollEntry :=
  if 1 ≤ e.1 ∧ e.1 ≤ Config.nodeMax then (pollFunctionOf e.2).map fun fn => ⟨e.1, fn⟩ else none

/-- Every coded entry, or none where one is invalid. -/
def pollEntriesOf : List (Nat × Nat) → Option (List PollEntry)
  | [] => some []
  | e :: es =>
      match pollEntryOf e, pollEntriesOf es with
      | some x, some xs => some (x :: xs)
      | _, _ => none

/-- R171: a coded list that is valid, as a poll list. -/
def validPollList (es : List (Nat × Nat)) (d : Nat) : Option PollList :=
  if 1 ≤ es.length ∧ es.length ≤ Config.pollListMax then
    match pollEntriesOf es, disciplineOf d with
    | some xs, some dis => some ⟨xs, dis⟩
    | _, _ => none
  else none

/-! ### Enumerations: values count from 0 in the order the manual lists them (R197) -/

/-- The face that a key character names (11: F0 to F3 are coded 0 to 3). -/
def faceOf (k : Byte) : Option Face :=
  match k.toNat with
  | 0 => some .f0
  | 1 => some .f1
  | 2 => some .f2
  | 3 => some .f3
  | _ => none

/-- The code of a face. -/
def faceCode : Face → Nat
  | .f0 => 0 | .f1 => 1 | .f2 => 2 | .f3 => 3

/-- The zone that a key character names, GAP 0 or EDGE 1. -/
def zoneOf (k : Byte) : Option Zone :=
  match k.toNat with
  | 0 => some .gap
  | 1 => some .edge
  | _ => none

/-- The answer codes of the answer frame. -/
def AnswerCode.code : AnswerCode → Nat
  | .done => 0 | .clamped => 1 | .noRecord => 2 | .noSpace => 3 | .inUse => 4 | .wrongMode => 5 | .outOfRange => 6
  | .conflict => 7 | .notQuiescent => 8 | .abandoned => 9 | .late => 10 | .badRequest => 11

def directionCode : Direction → Nat
  | .up => 0 | .down => 1

def zoneCode : Zone → Nat
  | .gap => 0 | .edge => 1

def Rate.code : Rate → Nat
  | .r19200 => 0 | .r38400 => 1 | .r57600 => 2 | .r115200 => 3

def rateOf : Nat → Option Rate
  | 0 => some .r19200
  | 1 => some .r38400
  | 2 => some .r57600
  | 3 => some .r115200
  | _ => none

def ArbiterDiscipline.code : ArbiterDiscipline → Nat
  | .fixed => 0 | .rotate => 1

def arbiterOf : Nat → Option ArbiterDiscipline
  | 0 => some .fixed
  | 1 => some .rotate
  | _ => none

def PollClass.code : PollClass → Nat
  | .marker => 0 | .list => 1 | .pass => 2

def pollClassOf : Nat → Option PollClass
  | 0 => some .marker
  | 1 => some .list
  | 2 => some .pass
  | _ => none

def LostAction.code : LostAction → Nat
  | .report => 0 | .isolate => 1

def lostActionOf : Nat → Option LostAction
  | 0 => some .report
  | 1 => some .isolate
  | _ => none

def BayState.code : BayState → Nat
  | .unknown => 0 | .closedLocked => 1 | .unlocking => 2 | .opening => 3 | .open => 4 | .warning => 5 | .closing => 6
  | .reopening => 7 | .heldOpen => 8 | .released => 9 | .faulted => 10 | .isolated => 11

def DeadlineKind.code : DeadlineKind → Nat
  | .unlock => 0 | .open => 1 | .close => 2 | .warning => 3

def DoorPosition.code : DoorPosition → Nat
  | .fullyClosed => 0 | .movingOpen => 1 | .fullyOpen => 2 | .movingClosed => 3 | .stoppedBetween => 4

def DoorCommand.code : DoorCommand → Nat
  | .open => 0 | .close => 1 | .hold => 2

def BerthState.code : BerthState → Nat
  | .vacant => 0 | .announced => 1 | .standing => 2 | .aligned => 3 | .reposition => 4 | .openService => 5
  | .closing => 6 | .secured => 7

def Quality.code : Quality → Nat
  | .full => 0 | .offset => 1 | .split => 2

def RepositionCause.code : RepositionCause → Nat
  | .overrun => 0 | .underrun => 1 | .noMatch => 2 | .noPosition => 3

def PresenceState.code : PresenceState → Nat
  | .suspect => 0 | .occupied => 1 | .clearing => 2

def Mode.code : Mode → Nat
  | .starting => 0 | .normal => 1 | .manual => 2 | .evacuation => 3 | .maintenance => 4

def modeOf : Nat → Option Mode
  | 0 => some .starting
  | 1 => some .normal
  | 2 => some .manual
  | 3 => some .evacuation
  | 4 => some .maintenance
  | _ => none

def LineSignal.code : LineSignal → Nat
  | .none => 0 | .break => 1 | .preamble => 2

def LineFunction.code : LineFunction → Nat
  | .status => 0 | .ident => 1 | .open => 2 | .close => 3 | .hold => 4

def PollFunction.code : PollFunction → Nat
  | .status => 0 | .ident => 1

def ListDiscipline.code : ListDiscipline → Nat
  | .repeat => 0 | .chain => 1

def TxClass.code : TxClass → Nat
  | .command => 0 | .marker => 1 | .list => 2 | .pass => 3

def TxOutcome.code : TxOutcome → Nat
  | .success => 0 | .timeout => 1 | .framing => 2 | .check => 3 | .length => 4 | .abandoned => 5

def LinkState.code : LinkState → Nat
  | .linked => 0 | .marginal => 1 | .lost => 2

/-! ### The sources and scopes of release records (07) -/

/-- The face of a release record's scope, absent for STATION_EVAC. -/
def ReleaseKey.face? : ReleaseKey → Option Face
  | .platformHandle f _ | .trackHandle f _ | .trainRequest f | .supervisor f => some f
  | .stationEvac => none

/-- The bay of a release record's scope, present for the two handle sources. -/
def ReleaseKey.bay? : ReleaseKey → Option Nat
  | .platformHandle _ b | .trackHandle _ b => some b
  | .trainRequest _ | .supervisor _ | .stationEvac => none

/-- The source's place in the table of sources. -/
def ReleaseKey.source : ReleaseKey → Nat
  | .platformHandle _ _ => 0 | .trackHandle _ _ => 1 | .trainRequest _ => 2 | .supervisor _ => 3 | .stationEvac => 4

/-! ### Checks -/

/-- The sum of a frame's characters. -/
def charSum (cs : List Byte) : Nat := (cs.map BitVec.toNat).sum

/-- The check character of a frame: with it the 8-bit sum of all characters is 0 modulo 256 (R161, R187). -/
def check256 (cs : List Byte) : Byte := chr (256 - charSum cs % 256)

/-- The sum of all characters is 0 modulo 256. -/
def checks256 (cs : List Byte) : Bool := charSum cs % 256 == 0

/-- A frame with its check character. -/
def withCheck256 (cs : List Byte) : List Byte := cs ++ [check256 cs]

/-- The check of a telegram or an answer: the sum of all its characters is 0 modulo 128 (11, Train link). -/
def check128 (cs : List Byte) : Byte := chr ((128 - charSum cs % 128) % 128)

/-- The sum of all characters is 0 modulo 128. -/
def checks128 (cs : List Byte) : Bool := charSum cs % 128 == 0

/-! ### Characters as bits (R159, R186; 11, Train link) -/

/-- The eight data bits of a character, least significant first. -/
def dataBits (v : Byte) : List Bool := (List.range 8).map fun i => v.getLsbD i

/-- The value of eight data bits, least significant first. -/
def byteOfBits (bits : List Bool) : Byte :=
  chr (((List.range 8).map fun i => if bits.getD i false then 2 ^ i else 0).sum)

/-- R186: the eight bits of a character of the supervisory port, most significant first. -/
def portBits (v : Byte) : List Bool := (dataBits v).reverse

/-- R186: the whole characters of a run of bits, most significant bit first; bits after the last whole one are
discarded. -/
def wholeChars : List Bool → List Byte
  | b7 :: b6 :: b5 :: b4 :: b3 :: b2 :: b1 :: b0 :: rest =>
      byteOfBits [b0, b1, b2, b3, b4, b5, b6, b7] :: wholeChars rest
  | _ => []

/-- R159: the 11 bit times of a bay-line character: start, data, address marker, stop. -/
def LineChar.bits (c : LineChar) : List Bool := [false] ++ dataBits c.value ++ [c.marker, c.stopBit]

/-- R159: the three things the BLC takes from the 11 bits of a character it receives. -/
def readLineChar (bits : List Bool) : LineChar := ⟨byteOfBits (bits.drop 1), bits.getD 9 false, bits.getD 10 false⟩

/-- The parity bit of a train link character, which makes the number of ones even. -/
def parityBit (v : Byte) : Bool := ((dataBits v).filter fun b => b).length % 2 == 1

/-- 11, Train link: the 11 bit times of a character the part sends: start, data, parity, stop. -/
def trainCharBits (v : Byte) : List Bool := [false] ++ dataBits v ++ [parityBit v, true]

/-- What BC takes from the 11 bits of a character it receives. -/
def readTrainChar (bits : List Bool) : TrainChar :=
  let v := byteOfBits (bits.drop 1)
  ⟨v, bits.getD 9 false == parityBit v, bits.getD 10 false⟩

/-- A train link character without a fault. -/
def cleanChar (v : Byte) : TrainChar := ⟨v, true, true⟩

/-- R160; 11, Bay-line headers: the characters of a header as sent: only the address character carries marker bit 1. -/
def headerChars : List Byte → List LineChar
  | [] => []
  | address :: rest => ⟨address, true, true⟩ :: rest.map fun v => ⟨v, false, true⟩

/-! ### Bay-line headers and responses (R160, R198) -/

/-- The function codes on the bay line. -/
def LineFunction.wire : LineFunction → Byte
  | .status => 1#8 | .ident => 2#8 | .open => 16#8 | .close => 17#8 | .hold => 18#8

/-- A door command as a header's function. -/
def DoorCommand.line : DoorCommand → LineFunction
  | .open => .open | .close => .close | .hold => .hold

/-- A poll function as a header's function. -/
def PollFunction.line : PollFunction → LineFunction
  | .status => .status | .ident => .ident

/-- R160: the header of a poll; a bay STATUS header carries the warning indication. -/
def pollHeader (address : Nat) (fn : LineFunction) (warning : Bool) : List Byte :=
  if fn = .status ∧ address ≤ Config.bayMax then
    withCheck256 [chr address, fn.wire, if warning then 1#8 else 0#8]
  else withCheck256 [chr address, fn.wire]

/-- R160, R176: the header of a command, addressed to one bay or broadcast to a set. -/
def commandHeader (bays : List Nat) (c : DoorCommand) : List Byte :=
  match bays with
  | [b] => withCheck256 [chr b, c.line.wire]
  | bs => withCheck256 ([0#8, c.line.wire] ++ baySet bs)

/-- R160: the number R of response data characters of a header with a response. -/
def responseLength (address : Nat) (fn : LineFunction) : Nat :=
  if fn = .status ∧ address ≤ Config.bayMax then 6 else 4

/-- R163: the timeout in bit times, one and a half times the nominal response time, rounded up. -/
def timeoutBits (r turnaround : Nat) : Nat := (3 * (11 * (r + 1) + turnaround) + 1) / 2

/-- R198: a door position value of 5 to 255 is read as STOPPED_BETWEEN. -/
def doorPositionOf (c : Byte) : DoorPosition :=
  match c.toNat with
  | 0 => .fullyClosed
  | 1 => .movingOpen
  | 2 => .fullyOpen
  | 3 => .movingClosed
  | _ => .stoppedBetween

/-- The items of a bay STATUS response (11, Bay STATUS response). -/
structure BayResponse where
  report : BayReport
  beams : BitVec 4
  edge : Bool
  platformHandle : Bool
  trackHandle : Bool
  deriving DecidableEq, Repr

/-- The data character at a place, counting from 1. -/
def charAt (cs : List Byte) (k : Nat) : Byte := cs.getD (k - 1) 0#8

/-- R198: the bay STATUS response is read by the bits its table names and no others. -/
def readBayResponse (cs : List Byte) : BayResponse where
  report :=
    { position := doorPositionOf (charAt cs 1)
      locked := (charAt cs 2).getLsbD 0
      motorFault := (charAt cs 3).getLsbD 0 }
  beams := (charAt cs 4).extractLsb' 0 4
  edge := (charAt cs 5).getLsbD 0
  platformHandle := (charAt cs 6).getLsbD 0
  trackHandle := (charAt cs 6).getLsbD 1

/-- R198: the seen item and the position of a marker STATUS response. -/
def readMarkerResponse (cs : List Byte) : Bool × Nat :=
  ((charAt cs 1).getLsbD 0,
    (charAt cs 2).toNat + 256 * (charAt cs 3).toNat + 65536 * ((charAt cs 4).toNat % 4))

/-! ### Answers on the train link (R199) -/

/-- The answer codes to a train. -/
inductive TrainCode where
  | accepted | refusedState | refusedProfile | refusedMode | notSecured | status
  deriving DecidableEq, Repr

def TrainCode.code : TrainCode → Byte
  | .accepted => 1#8 | .refusedState => 2#8 | .refusedProfile => 3#8 | .refusedMode => 4#8 | .notSecured => 5#8
  | .status => 6#8

/-- A door match set in seven characters of seven bits: door i is bit (i - 1) mod 7 of character (i - 1)/7 + 1. -/
def trainDoorSet (xs : List Nat) : List Byte := (List.range 7).map fun k => setChar 7 (7 * k + 1) xs

/-- An answer frame to the train with its check. -/
def trainAnswer (kind : Byte) (code : TrainCode) (data : List Byte) : List Byte :=
  let cs := [166#8, kind, code.code] ++ data
  cs ++ [check128 cs]

/-- The quality item of a STATUS answer: absent 0, FULL 1, OFFSET 2, SPLIT 3. -/
def qualityItem : Option Quality → Byte
  | none => 0#8
  | some q => chr (q.code + 1)

end Sys2Proof.Machine
end

