-- ==== Sys2Proof/Machine/Flags.lean ====
section
/-! DEFINITION. The properties the rules compute from the records wherever they are read: secure, presence standing,
coverage, release standing, listed markers, the proving conditions, and the output pins. -/

namespace Sys2Proof.Machine

/-- R14: a bay is secure while CLOSED_LOCKED, or ISOLATED with its lock confirmed. -/
def Bay.secure (x : Bay) : Bool := x.state == .closedLocked || (x.state == .isolated && x.lockConfirmed)

/-- R14: every enrolled bay of a face is secure. -/
def State.allSecure (s : State) (f : Face) : Bool := (s.face f).bays.all Bay.secure

/-- R77: a report shows closed and locked. -/
def BayReport.closedLocked (r : BayReport) : Bool := r.position == .fullyClosed && r.locked

/-- R103: a bay has presence standing while the list holds a record of it or its overflow mark is set. -/
def State.presenceStanding (s : State) (f : Face) (b : Nat) : Bool :=
  s.presence.any (fun r => r.face == f && r.bay == b) ||
    (match s.bay? f b with
     | some x => x.overflow
     | none => false)

/-- R103: a face has presence standing while any of its bays has. -/
def State.facePresence (s : State) (f : Face) : Bool :=
  s.presence.any (fun r => r.face == f) || (s.face f).bays.any Bay.overflow

/-- Coverage of a bay (R133). -/
inductive Coverage where
  | none | holding | opening
  deriving DecidableEq, Repr

/-- R133: a face or station record, or the face's mark, covers as an opening release. -/
def State.openingRelease (s : State) (f : Face) : Bool :=
  s.releases.any (fun r => r.key == .trainRequest f || r.key == .supervisor f || r.key == .stationEvac) ||
    (s.face f).releaseOverflow

/-- R133: the coverage of a bay. -/
def State.coverage (s : State) (f : Face) (b : Nat) : Coverage :=
  if s.openingRelease f then .opening
  else if s.releases.any (fun r => r.key == .platformHandle f b || r.key == .trackHandle f b) then .holding
  else .none

/-- R134: a face has a release standing. -/
def State.releaseStanding (s : State) (f : Face) : Bool :=
  s.releases.any (fun r => r.key.face? == some f || r.key == .stationEvac) || (s.face f).releaseOverflow

/-- R153, condition 6: no node of the face that is not an isolated bay is in LOST. -/
def State.nodesReachable (s : State) (f : Face) : Bool :=
  (List.range Config.nodeMax).all fun i =>
    ((s.face f).line.node (i + 1)).link != .lost ||
      (match s.bay? f (i + 1) with
       | some x => x.isolated
       | none => false)

/-- R153, condition 5: the line is enabled and not frozen. -/
def State.lineProves (s : State) (f : Face) : Bool := (s.face f).line.enabled && !(s.face f).line.frozen

/-- R153, condition 1. -/
def Mode.proves : Mode → Bool
  | .normal | .manual => true
  | .starting | .evacuation | .maintenance => false

/-- R153: all six conditions hold. -/
def Conditions.all (c : Conditions) : Bool := c.mode && c.secure && c.noPresence && c.noRelease && c.line && c.nodes

/-- R153: the six conditions as the state gives them. -/
def State.conditionsOf (s : State) (f : Face) : Conditions where
  mode := (s.face f).fi.mode.proves
  secure := s.allSecure f
  noPresence := !s.facePresence f
  noRelease := !s.releaseStanding f
  line := s.lineProves f
  nodes := s.nodesReachable f

/-- R141, condition 2: every enrolled bay that is not isolated is out of UNKNOWN or has its node in LOST. -/
def State.surveyed (s : State) (f : Face) : Bool :=
  (s.face f).bays.all fun x =>
    x.isolated || x.state != .unknown || ((s.face f).line.node x.num).link == .lost

/-- A poll list names an address. -/
def PollList.names (p : PollList) (a : Nat) : Bool := p.entries.any fun e => e.address == a

/-- 09, Poll lists: a list covers the face when it names every enrolled bay. -/
def State.covers (s : State) (f : Face) (p : PollList) : Bool := (s.bayNums f).all p.names

/-- The running list names a marker (R73). -/
def Line.namesMarker (l : Line) (k : Marker) : Bool :=
  match l.running with
  | some p => p.names (markerAddress k)
  | none => false

/-- The running list names at least one marker (R73). -/
def Line.namesSomeMarker (l : Line) : Bool := [Marker.m1, .m2, .m3, .m4].any l.namesMarker

/-- R73: the first marker from `k` on, in cyclic order, that the running list names; `k` where it names none. -/
def Line.firstNamed (l : Line) (k : Marker) : Marker :=
  let k2 := markerNext k
  let k3 := markerNext k2
  let k4 := markerNext k3
  if l.namesMarker k then k
  else if l.namesMarker k2 then k2
  else if l.namesMarker k3 then k3
  else if l.namesMarker k4 then k4
  else k

/-- R73: the berth states in which AU asks for marker transactions. -/
def BerthState.interleaves : BerthState → Bool
  | .announced | .standing | .aligned => true
  | .vacant | .reposition | .openService | .closing | .secured => false

/-- R73: all four conditions of AU's MARKER request hold. -/
def State.wantsMarker (s : State) (f : Face) : Bool :=
  decide (1 ≤ (s.face f).config.interleave) && (s.face f).berth.state.interleaves &&
    decide ((s.face f).config.interleave ≤ (s.face f).au.interleaveCount) && (s.face f).line.namesSomeMarker

/-- R76: OPEN may be sent to a bay in its face's berth mask, or on a face in MAINTENANCE. -/
def State.openAllowed (s : State) (f : Face) (b : Nat) : Bool := (s.mask f).contains b || s.maintenance f

/-- The berth is OPEN_SERVICE and the bay is in its mask (R78, R81, R93, R96). -/
def State.inService (s : State) (f : Face) (b : Nat) : Bool :=
  (s.face f).berth.state == .openService && (s.mask f).contains b

/-- R84: the warning indication of a bay, on while its WARNING deadline is armed and not suspended (R160). -/
def State.warningOn (s : State) (f : Face) (a : Nat) : Bool :=
  match s.bay? f a with
  | some x =>
      x.state == .warning &&
        (match x.deadline with
         | some d => d.kind == .warning && !d.suspended
         | none => false)
  | none => false

/-! ### Output pins -/

/-- READY is asserted while an answer is waiting (R188, R189); it is low without supply. -/
def State.ready (s : State) : Bool := s.powered && s.port.state == .answerReady

/-- Some attention set is non-empty (R193). -/
def State.attnStanding (s : State) : Bool :=
  s.partAttn || s.faces.f0.attn != 0#24 || s.faces.f1.attn != 0#24 || s.faces.f2.attn != 0#24 || s.faces.f3.attn != 0#24

/-- ATTN is asserted while some attention set is non-empty (R193). -/
def State.attn (s : State) : Bool := s.powered && s.attnStanding

/-- PROVE conducts exactly while FI asserts proving, with supply (R153, R201). -/
def State.prove (s : State) (f : Face) : Bool := s.powered && (s.face f).fi.proving

/-- What TLTX carries: an answer that a restart has cut, else the answer at the head of the queue (R30, R33). -/
def FaceState.onTltx (x : FaceState) : Option (List Byte) :=
  match x.tltx.cut with
  | some cs => some cs
  | none => x.link.answers.head?

/-- The level of TLTX at a millisecond of the time base (11, Train link). It idles high, also while POR is held low
(R201) and without supply (log entry 5). -/
def State.tltx (s : State) (f : Face) : Bool :=
  let x := s.face f
  !s.powered || (((x.onTltx.getD []).map trainCharBits).flatten[x.tltx.elapsed / 10]?).getD true

/-- R159: the BLC sends a header, a break or a preamble, and does not read BLRX. -/
def Line.sending (l : Line) : Bool :=
  l.signal != .none ||
    (match l.tx with
     | some t => t.window.isNone
     | none => false)

/-- R159, R177, R178: the bits that the BLC is sending: a break, a preamble, or the characters of a header. -/
def Line.sends (l : Line) : List Bool :=
  match l.signal with
  | .break => List.replicate Config.breakBits false
  | .preamble => List.replicate Config.preambleBits true
  | .none =>
      match l.tx with
      | some t => if t.window.isNone then ((headerChars t.header).map LineChar.bits).flatten else []
      | none => []

/-- The level of BLTX in bit time `k` of what the BLC is sending. Between transmissions it idles at 1 (R159), also while
POR is held low (R201) and without supply (log entry 5). -/
def State.bltx (s : State) (f : Face) (k : Nat) : Bool := !s.powered || ((s.face f).line.sends[k]?).getD true

/-- SVDO is driven during an exchange, while SVCS is low (R186), and not while POR is held low (R201) or without supply (log
entry 5). -/
def State.svdoDriven (s : State) : Bool := s.powered && s.port.exchange.isSome

/-- BLDE is asserted while the BLC sends a header, a break or a preamble (R159). -/
def State.blde (s : State) (f : Face) : Bool := s.powered && (s.face f).line.sending

end Sys2Proof.Machine
end

