-- ==== Sys2Proof/Machine/Positions.lean ====
section
/-! DEFINITION. The arithmetic of the Alignment Unit (chapter 4): head estimates, fusion, the overlap test and the
alignment. -/

namespace Sys2Proof.Machine

/-- D, the sign of a direction (00_scope, Direction). -/
def sign : Direction → Int
  | .up => 1
  | .down => -1

/-- The profile enrolled under a code. -/
def State.profile? (s : State) (code : Nat) : Option Profile := s.profiles.find? fun p => p.code == code

/-- The profile a face's berth names (R27). -/
def State.berthProfile (s : State) (f : Face) : Option Profile :=
  match (s.face f).berth.profile with
  | some c => s.profile? c
  | none => none

/-- R58: the head estimate of a reading, where it is valid. -/
def estimate (s : State) (f : Face) (dir : Direction) (q : Nat) (r : Reading) : Option Int :=
  let h : Int := r.position + sign dir * q
  match (s.face f).config.lf with
  | none => none
  | some lf =>
      if r.seen ∧ s.age r.takenAt < (s.face f).config.readingAge ∧ 0 ≤ h ∧ h ≤ lf then some h else none

/-- R58, R59: the valid estimates of a face; a berth without profile or direction gives none. -/
def estimates (s : State) (f : Face) : List Int :=
  match s.berthProfile f, (s.face f).berth.dir with
  | some p, some dir =>
      [Marker.m1, .m2, .m3, .m4].filterMap fun k =>
        match (s.face f).au.readings.get k with
        | some r => estimate s f dir p.q r
        | none => none
  | _, _ => []

/-- An estimate put in its place in an ascending list. -/
def insertAscending (x : Int) : List Int → List Int
  | [] => [x]
  | y :: ys => if x ≤ y then x :: y :: ys else y :: insertAscending x ys

/-- The estimates in ascending order (R60). -/
def ascending : List Int → List Int
  | [] => []
  | x :: xs => insertAscending x (ascending xs)

/-- R60: the median, at position (n - 1)/2 counting from 0. -/
def medianOf (es : List Int) : Int := (ascending es).getD ((es.length - 1) / 2) 0

/-- R60: the estimates within the agreement limit of the median. -/
def keptOf (agreement : Nat) (es : List Int) : List Int :=
  es.filter fun e => decide ((e - medianOf es).natAbs ≤ agreement)

/-- R61: the mean of the kept estimates, rounded half up. -/
def meanOf (ks : List Int) : Int := (ks.sum + (ks.length / 2 : Nat)) / (ks.length : Int)

/-- R59 to R61: the fusion of a face at the present. -/
def fuse (s : State) (f : Face) : Fusion :=
  let es := estimates s f
  let ks := keptOf (s.face f).config.agreement es
  if es.length = 0 then ⟨none, 0, 0, some s.now⟩
  else if ks.length < (s.face f).config.nMin then ⟨none, es.length, ks.length, some s.now⟩
  else ⟨some (meanOf ks), es.length, ks.length, some s.now⟩

/-- R59: AU performs a fusion; its result replaces the one before. -/
def fusion (f : Face) (s : State) : State := s.modAu f fun a => { a with fusion := fuse s f }

/-! ### The alignment -/

/-- R66: the overlap of a door and a bay in doubled millimetres, the head standing at `x`. -/
def overlap2 (x : Int) (dir : Direction) (d : Door) (b : Bay) : Int :=
  let p : Int := x - sign dir * d.offset
  min (2 * (b.centre : Int) + b.width) (2 * p + d.width) - max (2 * (b.centre : Int) - b.width) (2 * p - d.width)

/-- R66: door and bay match when the overlap is at least twice the minimum passage width. -/
def doorMatches (m : Nat) (x : Int) (dir : Direction) (d : Door) (b : Bay) : Bool :=
  decide (2 * (m : Int) ≤ overlap2 x dir d b)

/-- R67: the bays that match at least one door. -/
def maskAt (m : Nat) (x : Int) (dir : Direction) (doors : List Door) (bays : List Bay) : List Bay :=
  bays.filter fun b => doors.any fun d => doorMatches m x dir d b

/-- The doors of a list with their indices, counting from 1 (R17). -/
def indexed : Nat → List Door → List (Nat × Door)
  | _, [] => []
  | i, d :: ds => (i, d) :: indexed (i + 1) ds

/-- R67, R68: the indices of the doors that, at every one of the positions `xs`, match at least one of the bays. -/
def doorsAt (m : Nat) (xs : List Int) (dir : Direction) (doors : List Door) (bays : List Bay) : List Nat :=
  ((indexed 1 doors).filter fun d => xs.all fun x => bays.any fun b => doorMatches m x dir d.2 b).map Prod.fst

/-- The result of an alignment (R63). -/
inductive AlignmentResult where
  | aligned (snapshot : Snapshot)
  | reposition (cause : RepositionCause) (error : Int)
  deriving DecidableEq, Repr

/-- R64: the stop error. -/
def stopError (h : Int) (mark : Nat) (dir : Direction) : Int := (h - mark) * sign dir

/-- R65: the quality from the fine test. -/
def qualityOf (c : FaceConfig) (e : Int) : Quality := if e.natAbs ≤ c.tFine then .full else .offset

/-- R67 to R69: the mask and the door match set at `h`, narrowed by a failed cross-check, and the empty test. -/
def matchResult (c : FaceConfig) (bays : List Bay) (doors : List Door) (dir : Direction) (h e : Int)
    (ht : Option Nat) : AlignmentResult :=
  let atH := maskAt c.minPassage h dir doors bays
  let plain : Snapshot :=
    { hUsed := h, stopError := e, quality := qualityOf c e, mask := atH.map Bay.num
      doors := doorsAt c.minPassage [h] dir doors bays }
  let narrowed (t : Nat) : Snapshot :=
    let both := maskAt c.minPassage t dir doors atH
    { hUsed := h, stopError := e, quality := .split, mask := both.map Bay.num
      doors := doorsAt c.minPassage [h, (t : Int)] dir doors both }
  let result : Snapshot :=
    match ht with
    | none => plain
    | some t => if ((t : Int) - h).natAbs ≤ c.agreement then plain else narrowed t
  if result.mask = [] ∨ result.doors = [] then .reposition .noMatch e else .aligned result

/-- R63 to R69: the alignment of a train at head position `h` against a stop mark. -/
def alignmentAt (c : FaceConfig) (bays : List Bay) (doors : List Door) (dir : Direction) (mark : Nat) (h : Int)
    (ht : Option Nat) : AlignmentResult :=
  let e := stopError h mark dir
  if c.tCoarse < e.natAbs then .reposition (if 0 < e then .overrun else .underrun) e
  else matchResult c bays doors dir h e ht

/-- The stop mark of a direction and a car count; a car count outside 1 to 10 finds none (R35). -/
def FaceConfig.mark? (c : FaceConfig) (dir : Direction) (cars : Nat) : Option Nat :=
  if cars = 0 then none
  else
    match dir with
    | .up => (c.marksUp[cars - 1]?).join
    | .down => (c.marksDown[cars - 1]?).join

/-- R63: the alignment of a face at a confirmed head position, from the records as they stand. -/
def computeAlignment (s : State) (f : Face) (h : Int) : Option AlignmentResult :=
  let x := s.face f
  match s.berthProfile f, x.berth.dir, x.berth.cars with
  | some p, some dir, some cars =>
      match x.config.mark? dir cars with
      | some mark => some (alignmentAt x.config x.bays p.doors dir mark h x.berth.ht)
      | none => none
  | _, _, _ => none

/-- R71: the confirmed head lies further from h_used than the agreement limit. -/
def moved (s : State) (f : Face) : Bool :=
  match (s.face f).au.fusion.head, (s.face f).berth.snapshot with
  | some h, some q => decide ((s.face f).config.agreement < (h - q.hUsed).natAbs)
  | _, _ => false

end Sys2Proof.Machine
end

