-- ==== Sys2Proof/Machine/Interlock.lean ====
section
/-! DEFINITION. The Face Interlock's own events (chapter 8): the proving conditions, the census, and the pending
request for MAINTENANCE. -/

namespace Sys2Proof.Machine

/-- R154: FI updates a proving condition and recomputes proving; a change of proving latches PROVING_CHANGE. -/
def fiUpdate (f : Face) (g : Conditions → Conditions) (s : State) : State :=
  let c := g (s.face f).fi.conditions
  let s1 := s.modFi f fun x => { x with conditions := c, proving := c.all }
  if c.all = (s.face f).fi.proving then s1 else s1.latch f .provingChange

/-- R154, condition 2. -/
def fiSecure (f : Face) (s : State) : State := fiUpdate f (fun c => { c with secure := s.allSecure f }) s

/-- R154, condition 3, at a face presence change (R112). -/
def fiPresence (f : Face) (s : State) : State := fiUpdate f (fun c => { c with noPresence := !s.facePresence f }) s

/-- R154, condition 4, at a face release change (R134). -/
def fiRelease (f : Face) (s : State) : State := fiUpdate f (fun c => { c with noRelease := !s.releaseStanding f }) s

/-- R154, condition 5, at a change of the line reported by the BLC. -/
def fiLine (f : Face) (s : State) : State := fiUpdate f (fun c => { c with line := s.lineProves f }) s

/-- R154, condition 6. -/
def fiNodes (f : Face) (s : State) : State := fiUpdate f (fun c => { c with nodes := s.nodesReachable f }) s

/-- R154, condition 1: the face takes a mode, and FI latches MODE_DONE (R152). -/
def fiEnterMode (f : Face) (m : Mode) (s : State) : State :=
  (fiUpdate f (fun c => { c with mode := m.proves }) (s.modFi f fun x => { x with mode := m })).latch f .modeDone

/-- The mode that the panel key calls for at the end of the census (R141, R149). -/
def keyMode (keyOn : Bool) : Mode := if keyOn then .manual else .normal

/-- R141, R149: FI ends STARTING, or a stored STARTING, where both census conditions hold. -/
def fiCensus (f : Face) (s : State) : State :=
  let fi := (s.face f).fi
  if fi.censusPass && s.surveyed f then
    match fi.mode, fi.stored with
    | .starting, _ => fiEnterMode f (keyMode fi.keyOn) s
    | .evacuation, some .starting =>
        (s.modFi f fun x => { x with stored := some (keyMode x.keyOn) }).latch f .modeDone
    | _, _ => s
  else s

/-- R144: both conditions of entry to MAINTENANCE. -/
def maintenanceReady (f : Face) (s : State) : Bool := (s.face f).berth.state == .vacant && s.allSecure f

/-- R144: FI tests a pending request and grants it where both conditions of entry hold. -/
def fiRequest (f : Face) (s : State) : State :=
  if (s.face f).fi.request.isSome && maintenanceReady f s then
    fiEnterMode f .maintenance (s.modFi f fun x => { x with request := none })
  else s

/-- R141, R144, R154: DS hands FI a bay state change. A change that ends the census and also grants a pending request ends
the census first: the model's choice (log entry 4). -/
def fiBayState (f : Face) (s : State) : State := fiRequest f (fiCensus f (fiSecure f s))

/-- R144, R154: DS hands FI a change of lock confirmed. -/
def fiLock (f : Face) (s : State) : State := fiRequest f (fiSecure f s)

/-- R141, R154: DS hands FI a change of a bay's isolated flag. -/
def fiIsolated (f : Face) (s : State) : State := fiCensus f (fiNodes f s)

/-- R141, R154: the BLC hands FI an entry of a node to LOST or a return from it. -/
def fiNode (f : Face) (s : State) : State := fiCensus f (fiNodes f s)

/-- R144: BC hands FI a berth state change. -/
def fiBerth (f : Face) (s : State) : State := fiRequest f s

/-- R142: the BLC hands FI a pass end. -/
def fiPassEnd (f : Face) (s : State) : State :=
  let fi := (s.face f).fi
  let counts := fi.mode == .starting || (fi.mode == .evacuation && fi.stored == some .starting)
  fiCensus f (if counts then s.modFi f fun x => { x with censusPass := true } else s)

/-- R146: a pending request is abandoned with its deadline, and MODE_ABANDONED is latched. -/
def fiAbandon (f : Face) (s : State) : State :=
  if (s.face f).fi.request.isSome then (s.modFi f fun x => { x with request := none }).latch f .modeAbandoned else s

/-- R144: a request is stored and its mode transition deadline armed. -/
def fiPend (f : Face) (s : State) : State :=
  s.modFi f fun x => { x with request := some ⟨s.now, s.after (s.face f).config.modeTransition⟩ }

end Sys2Proof.Machine
end

