-- ==== Sys2Proof/Machine/Interleave.lean ====
section
/-! DEFINITION. The events that follow a change of berth state or bay state without moving a door: AU's MARKER request
(R72 to R74), GM's entrapment test (R114), and BC's closing completion (R43). -/

namespace Sys2Proof.Machine

/-! ### AU's MARKER request -/

/-- R73: the request is raised at the event that makes the last of its conditions true, moving the next marker forward
to one that is named, and withdrawn at the event that makes any of them false. -/
def auRefresh (f : Face) (s : State) : State :=
  let want := s.wantsMarker f
  let line := (s.face f).line
  s.modAu f fun a =>
    { a with
      markerRequest := want
      nextMarker := if want && !a.markerRequest then line.firstNamed a.nextMarker else a.nextMarker }

/-- R72: a LIST transaction ended in success or a failure. -/
def auListEnd (f : Face) (s : State) : State :=
  auRefresh f (s.modAu f fun a => { a with interleaveCount := saturate Config.interleaveMax a.interleaveCount })

/-- R72, R74: a MARKER transaction ended in success or a failure. Where the running list names no marker any more, the next
marker moves on by one: the model's choice (log entry 27). -/
def auMarkerEnd (f : Face) (s : State) : State :=
  let line := (s.face f).line
  auRefresh f (s.modAu f fun a =>
    { a with interleaveCount := 0, nextMarker := line.firstNamed (markerNext a.nextMarker) })

/-! ### Entrapment -/

/-- R114, condition 4, of a bay and its berth. -/
def entrapmentPlace (s : State) (f : Face) (b : Nat) : Bool :=
  (match s.bay? f b with
   | some x => x.state == .closing || x.state == .closedLocked || x.state == .heldOpen
   | none => false) ||
    (s.face f).berth.state == .closing || (s.face f).berth.state == .secured

/-- R114: the four conditions for a record. -/
def entrapped (s : State) (r : Presence) : Bool :=
  r.state == .occupied && !r.reported && decide ((s.face r.face).config.entrapment < s.age r.onset) &&
    entrapmentPlace s r.face r.bay

/-- R114: the test of the records that `sel` selects, all of face `f`. -/
def entrapmentTest (f : Face) (sel : Presence → Bool) (s : State) : State :=
  let hit := fun r => r.face == f && sel r && entrapped s r
  let s1 := { s with presence := s.presence.map fun r => if hit r then { r with reported := true } else r }
  if s.presence.any hit then s1.latch f .entrapment else s1

/-- R114: the test at an event of one bay. -/
def entrapmentBay (f : Face) (b : Nat) (s : State) : State := entrapmentTest f (fun r => r.bay == b) s

/-- R114: the test at a berth state change. -/
def entrapmentFace (f : Face) (s : State) : State := entrapmentTest f (fun _ => true) s

/-! ### Berth state changes and closing completion -/

/-- R31: a change of the berth record. Where the state changes, BERTH_CHANGE is latched and the new state is handed to
AU, to DS (the event `ds`), to GM and to FI, in that order (log entry 4). -/
def berthChange (f : Face) (g : Berth → Berth) (ds : State → State) (s : State) : State :=
  let s1 := s.modBerth f g
  if (g (s.face f).berth).state = (s.face f).berth.state then s1
  else fiBerth f (entrapmentFace f (ds (auRefresh f (s1.latch f .berthChange))))

/-- R43: every bay of the mask is CLOSED_LOCKED. -/
def State.maskLocked (s : State) (f : Face) : Bool :=
  (s.mask f).all fun b =>
    match s.bay? f b with
    | some x => x.state == .closedLocked
    | none => false

/-- R43: a CLOSING berth with every masked bay CLOSED_LOCKED becomes SECURED. -/
def closingTest (f : Face) (s : State) : State :=
  if (s.face f).berth.state = .closing ∧ s.maskLocked f then
    berthChange f (fun x => { x with state := .secured }) id s
  else s

/-- R43: BC takes DS's report that a bay has changed state. -/
def bcBayState (f : Face) (b : Nat) (s : State) : State :=
  if (s.mask f).contains b then
    match (s.face f).berth.state with
    | .closing => closingTest f s
    | .secured =>
        if s.maskLocked f then s
        else closingTest f (berthChange f (fun x => { x with state := .closing }) id s)
    | .vacant | .announced | .standing | .aligned | .reposition | .openService => s
  else s

/-- R77: DS hands a bay's new state to BC, to GM and to FI, each as an event of its own. -/
def handBayState (f : Face) (b : Nat) (s : State) : State := fiBayState f (entrapmentBay f b (bcBayState f b s))

end Sys2Proof.Machine
end

