-- ==== Sys2Proof/Machine/Doors.lean ====
section
/-! DEFINITION. The Door Sequencer (chapter 5): commands to bay units, the transitions of a bay, and DS's action on each
event it is handed. -/

namespace Sys2Proof.Machine

/-! ### Commands and transitions -/

/-- R174: a command joins the tail of the command queue, and an entry waiting for the same bay is removed. -/
def queueCommand (f : Face) (b : Nat) (c : DoorCommand) (s : State) : State :=
  s.modLine f fun l => { l with queue := l.queue.filter (fun q => q.bay != b) ++ [⟨b, c⟩] }

/-- R76: DS gives a command: it becomes the bay's last command and is handed to the BLC, but for an OPEN or CLOSE on a
frozen line, which is only recorded. -/
def sendCommand (f : Face) (b : Nat) (c : DoorCommand) (s : State) : State :=
  let s1 := s.modBay f b fun x => { x with lastCommand := some c }
  if c = .hold ∨ (s.face f).line.frozen = false then queueCommand f b c s1 else s1

/-- DS gives a command where the last command differs from it (R80, R95, R96). -/
def sendIfNew (f : Face) (b : Nat) (c : DoorCommand) (s : State) : State :=
  match s.bay? f b with
  | some x => if x.lastCommand = some c then s else sendCommand f b c s
  | none => s

/-- A change of a bay's dynamic fields; a change of its state is handed on (R77). -/
def moveBay (f : Face) (b : Nat) (g : Bay → Bay) (s : State) : State :=
  match s.bay? f b with
  | none => s
  | some x =>
      if (g x).state = x.state then s.modBay f b g else handBayState f b (s.modBay f b g)

/-- A deadline armed at the present; on a frozen line it is armed suspended, with no time (R98). -/
def armed (s : State) (f : Face) (kind : DeadlineKind) (ms : Nat) : BayDeadline :=
  if (s.face f).line.frozen then ⟨kind, none, true⟩ else ⟨kind, some (s.after ms), false⟩

/-- The isolated flag of a bay takes a value; a change is handed to FI (R154). -/
def setIsolated (f : Face) (b : Nat) (v : Bool) (s : State) : State :=
  match s.bay? f b with
  | none => s
  | some x =>
      if x.isolated = v then s else fiIsolated f (s.modBay f b fun x => { x with isolated := v })

/-- Lock confirmed takes a value; a change is handed to FI (R77). -/
def setLock (f : Face) (b : Nat) (v : Bool) (s : State) : State :=
  match s.bay? f b with
  | none => s
  | some x =>
      if x.lockConfirmed = v then s else fiLock f (s.modBay f b fun x => { x with lockConfirmed := v })

/-- R84: DS starts a warning period on a bay: the staged duration is copied, and the WARNING deadline is armed unless
presence is standing. -/
def startWarning (f : Face) (b : Nat) (s : State) : State :=
  let live := (s.face f).config.warning
  let d := if s.presenceStanding f b then none else some (armed s f .warning live)
  moveBay f b (fun x => { x with state := .warning, liveWarning := some live, deadline := d }) s

/-- R90: a motion limit expired or the motor reported a fault. -/
def faultBay (f : Face) (b : Nat) (s : State) : State :=
  (moveBay f b (fun x => { x with state := .faulted, reopens := 0, deadline := none, liveWarning := none })
    (sendCommand f b .hold s)).latch f .motionFault

/-- Entry to UNLOCKING with OPEN (R80): OPEN is sent unless it is the last command, and the UNLOCK deadline is armed. -/
def toUnlocking (f : Face) (b : Nat) (s : State) : State :=
  let d := armed s f .unlock (s.face f).config.unlockLimit
  moveBay f b (fun x => { x with state := .unlocking, reopens := 0, deadline := some d, liveWarning := none })
    (sendIfNew f b .open s)

/-- R84: the WARNING deadline expired: CLOSE is sent and the CLOSE deadline armed. -/
def toClosing (f : Face) (b : Nat) (s : State) : State :=
  let d := armed s f .close (s.face f).config.closeLimit
  moveBay f b (fun x => { x with state := .closing, deadline := some d, liveWarning := none })
    (sendCommand f b .close s)

/-- A bay reaches HELD_OPEN, and REOPEN_LIMIT is latched (R86, R87). -/
def toHeldOpen (f : Face) (b : Nat) (s : State) : State :=
  (moveBay f b (fun x => { x with state := .heldOpen, deadline := none }) s).latch f .reopenLimit

/-- Entry to OPEN (R80, R81, R96). -/
def toOpen (f : Face) (b : Nat) (s : State) : State :=
  moveBay f b (fun x => { x with state := .open, deadline := none, liveWarning := none }) s

/-- Entry to CLOSED_LOCKED (R85). -/
def toClosedLocked (f : Face) (b : Nat) (s : State) : State :=
  moveBay f b (fun x => { x with state := .closedLocked, deadline := none, liveWarning := none, reopens := 0 }) s

/-! ### Release coverage -/

/-- R95: the release command of a bay. -/
def releaseCommand (s : State) (f : Face) (b : Nat) : DoorCommand :=
  if s.coverage f b = .opening ∧ (s.mask f).contains b then .open else .hold

/-- R95: the release command is evaluated, and sent where the last command differs. -/
def sendRelease (f : Face) (b : Nat) (s : State) : State := sendIfNew f b (releaseCommand s f b) s

/-- R94: a covered bay goes to RELEASED and is given its release command. -/
def toReleased (f : Face) (b : Nat) (s : State) : State :=
  sendRelease f b
    (moveBay f b (fun x => { x with state := .released, deadline := none, liveWarning := none, reopens := 0 }) s)

/-- R96: a RELEASED bay stops being covered. -/
def uncover (f : Face) (b : Nat) (s : State) : State :=
  match s.bay? f b with
  | none => s
  | some x =>
      if x.lockConfirmed then
        toClosedLocked f b (if x.lastCommand = some .open then sendCommand f b .close s else s)
      else if s.inService f b then toOpen f b (sendIfNew f b .open s)
      else startWarning f b s

/-- R94 to R96: RM hands DS the new coverage of a bay. -/
def dsCoverage (f : Face) (b : Nat) (s : State) : State :=
  match s.bay? f b with
  | none => s
  | some x =>
      match x.state, s.coverage f b with
      | .released, .none => uncover f b s
      | .released, .holding | .released, .opening => sendRelease f b s
      | .unknown, _ | .faulted, _ | .isolated, _ => s
      | _, .none => s
      | _, .holding | _, .opening => toReleased f b s

/-! ### Reports -/

/-- R81: a report moves an opening bay forward. -/
def openingReport (f : Face) (b : Nat) (r : BayReport) (s : State) : State :=
  match s.bay? f b with
  | none => s
  | some x =>
      if r.position = .fullyOpen then
        if s.maintenance f || s.inService f b then toOpen f b s else startWarning f b s
      else if x.state = .unlocking ∧
          (r.locked = false ∨ r.position = .movingOpen ∨ r.position = .stoppedBetween) then
        let d := armed s f .open (s.face f).config.openLimit
        moveBay f b (fun x => { x with state := .opening, deadline := some d }) s
      else s

/-- R78, R93: OPEN is sent, the bay goes to UNLOCKING, and R81 is applied to the same report. -/
def reopenByReport (f : Face) (b : Nat) (r : BayReport) (s : State) : State :=
  openingReport f b r (toUnlocking f b (sendCommand f b .open s))

/-- R78: an UNKNOWN bay takes its state from a report, outside MAINTENANCE. -/
def resolveUnknown (f : Face) (b : Nat) (r : BayReport) (s : State) : State :=
  match s.bay? f b with
  | none => s
  | some x =>
      if s.maintenance f then s
      else if x.isolated then
        moveBay f b (fun x => { x with state := .isolated }) (sendCommand f b .hold s)
      else if s.coverage f b ≠ .none then toReleased f b s
      else if r.closedLocked then toClosedLocked f b s
      else if s.inService f b then reopenByReport f b r s
      else startWarning f b s

/-- R93: a bay with restore pending takes its state from its next report. -/
def restoreByReport (f : Face) (b : Nat) (r : BayReport) (s : State) : State :=
  let s1 := s.modBay f b fun x => { x with restorePending := false }
  if s1.coverage f b ≠ .none then toReleased f b s1
  else if r.closedLocked then toClosedLocked f b s1
  else if s1.inService f b then reopenByReport f b r s1
  else startWarning f b s1

/-- R87: a report in REOPENING; FULLY_OPEN ends the reopening of a bay whose OPEN deadline is armed. A bay that R86 sent
HOLD has none and stays until the clearance. -/
def reopeningReport (f : Face) (b : Nat) (r : BayReport) (s : State) : State :=
  match s.bay? f b with
  | none => s
  | some x =>
      if r.position = .fullyOpen ∧ x.deadline.isSome then
        if x.reopens = (s.face f).config.reopenLimit then toHeldOpen f b s
        else if s.presenceStanding f b then s.modBay f b fun x => { x with deadline := none }
        else startWarning f b s
      else s

/-- The rule of the bay's state for a report (R77). A motor fault in a motion state comes first (R90, log entry 8). -/
def stateReport (f : Face) (b : Nat) (r : BayReport) (s : State) : State :=
  match s.bay? f b with
  | none => s
  | some x =>
      if x.state = .unknown then resolveUnknown f b r s
      else if x.restorePending then restoreByReport f b r s
      else
        match x.state with
        | .unlocking | .opening => if r.motorFault then faultBay f b s else openingReport f b r s
        | .closing =>
            if r.motorFault then faultBay f b s
            else if r.closedLocked then toClosedLocked f b s
            else s
        | .reopening => if r.motorFault then faultBay f b s else reopeningReport f b r s
        | .unknown | .closedLocked | .open | .warning | .heldOpen | .released | .faulted | .isolated => s

/-- R77, R13: DS takes a report: the last report and lock confirmed first, then the rule of the bay's state. -/
def dsReport (f : Face) (b : Nat) (r : BayReport) (s : State) : State :=
  let s1 := s.modBay f b fun x => { x with lastReport := some ⟨r, false⟩ }
  stateReport f b r (setLock f b r.closedLocked s1)

/-- R79, R13: the BLC reports that a bay's node has entered LOST. -/
def dsLost (f : Face) (b : Nat) (s : State) : State :=
  match s.bay? f b with
  | none => s
  | some x =>
      let stale := fun (x : Bay) =>
        { x with
          deadline := none, liveWarning := none, reopens := 0, restorePending := false
          lastReport := x.lastReport.map fun q => { q with beforeLoss := true } }
      let s1 := setLock f b false (s.modBay f b stale)
      if x.isolated then moveBay f b (fun x => { x with state := .isolated }) s1
      else
        match (s.face f).config.lostAction with
        | .report => moveBay f b (fun x => { x with state := .unknown, lastCommand := none }) s1
        | .isolate =>
            moveBay f b (fun x => { x with state := .isolated }) (sendCommand f b .hold (setIsolated f b true s1))

/-! ### Open, close and mask-dropped events from BC -/

/-- R80: an open event reaches a bay; OPEN_BAY acts as the same event (R97). -/
def openBayEvent (f : Face) (b : Nat) (s : State) : State :=
  match s.bay? f b with
  | none => s
  | some x =>
      match x.state with
      | .closedLocked | .closing | .reopening => toUnlocking f b s
      | .warning =>
          if x.lastCommand = some .open then
            toOpen f b (s.modBay f b fun x => { x with reopens := 0 })
          else toUnlocking f b s
      | .released => sendRelease f b s
      | .unlocking | .opening | .open | .heldOpen | .unknown | .faulted | .isolated => s

/-- R80: the open event of BC acts on each bay of the mask, in ascending order: the model's choice, which shows in the
command queue (log entry 28). -/
def openEvent (f : Face) (s : State) : State := forEach (s.mask f) (openBayEvent f) s

/-- R82: a close event moves a bay that is OPEN to WARNING. -/
def closeBayEvent (f : Face) (b : Nat) (s : State) : State :=
  match s.bay? f b with
  | some x => if x.state = .open then startWarning f b s else s
  | none => s

/-- R82: the close event of BC acts on each bay of the mask. -/
def closeEvent (f : Face) (s : State) : State := forEach (s.mask f) (closeBayEvent f) s

/-- R95: a mask-dropped event re-evaluates the release command of a RELEASED bay. -/
def maskDroppedBay (f : Face) (b : Nat) (s : State) : State :=
  match s.bay? f b with
  | some x => if x.state = .released then sendRelease f b s else s
  | none => s

/-- R95: the mask-dropped event of BC, taken with the snapshot gone. -/
def maskDropped (f : Face) (s : State) : State := forEach (s.bayNums f) (maskDroppedBay f) s

/-- R83: the face leaves MAINTENANCE: a close with warning starts on every bay that is OPEN. -/
def leaveMaintenance (f : Face) (s : State) : State := forEach (s.bayNums f) (closeBayEvent f) s

/-- R89: a panel CLOSE reaches one bay. -/
def panelCloseBay (f : Face) (b : Nat) (s : State) : State :=
  match s.bay? f b with
  | none => s
  | some x =>
      if s.coverage f b = .none ∧ x.isolated = false then
        match x.state with
        | .open | .unlocking | .opening | .reopening | .heldOpen => startWarning f b s
        | .warning | .closing | .closedLocked | .unknown | .faulted | .isolated | .released => s
      else s

/-- R89: FI hands DS a panel CLOSE. -/
def panelClose (f : Face) (s : State) : State := forEach (s.bayNums f) (panelCloseBay f) s

/-! ### Presence -/

/-- R86: an onset in CLOSING reopens the door. -/
def reopen (f : Face) (b : Nat) (x : Bay) (s : State) : State :=
  let limit := (s.face f).config.reopenLimit
  if s.openAllowed f b then
    let s1 := sendCommand f b .open s
    if x.reopens < limit then
      let d := armed s f .open (s.face f).config.openLimit
      moveBay f b (fun x => { x with state := .reopening, reopens := x.reopens + 1, deadline := some d }) s1
    else toHeldOpen f b s1
  else
    let s1 := sendCommand f b .hold s
    if x.reopens < limit then
      moveBay f b (fun x => { x with state := .reopening, reopens := x.reopens + 1, deadline := none }) s1
    else toHeldOpen f b s1

/-- R84, R86: GM hands DS an onset. -/
def onset (f : Face) (b : Nat) (s : State) : State :=
  match s.bay? f b with
  | none => s
  | some x =>
      match x.state with
      | .warning => s.modBay f b fun x => { x with deadline := none }
      | .closing => reopen f b x s
      | .unknown | .closedLocked | .unlocking | .opening | .open | .reopening | .heldOpen | .released | .faulted
      | .isolated => s

/-- R84, R87: GM hands DS a clearance. -/
def clearance (f : Face) (b : Nat) (s : State) : State :=
  match s.bay? f b with
  | none => s
  | some x =>
      match x.state with
      | .warning => startWarning f b s
      | .reopening =>
          if x.deadline.isSome then s
          else if x.lastCommand = some .hold ∧ x.reopens = (s.face f).config.reopenLimit then toHeldOpen f b s
          else startWarning f b s
      | .unknown | .closedLocked | .unlocking | .opening | .open | .closing | .heldOpen | .released | .faulted
      | .isolated => s

/-! ### Freeze -/

/-- R98: the deadlines of a face's bays are suspended, kind and time kept. -/
def suspendBays (f : Face) (s : State) : State :=
  s.modBays f fun xs => xs.map fun x => { x with deadline := x.deadline.map fun d => { d with suspended := true } }

/-- R99: the length of a deadline re-armed at UNFREEZE. -/
def rearmLength (c : FaceConfig) (x : Bay) : DeadlineKind → Nat
  | .unlock => c.unlockLimit
  | .open => c.openLimit
  | .close => c.closeLimit
  | .warning => x.liveWarning.getD c.warning

/-- R99: a suspended deadline is re-armed in full from the present. -/
def rearmBay (s : State) (c : FaceConfig) (x : Bay) : Bay :=
  { x with
    deadline := x.deadline.map fun d =>
      if d.suspended then ⟨d.kind, some (s.after (rearmLength c x d.kind)), false⟩ else d }

/-- R99: the last OPEN or CLOSE of a bay is handed to the BLC again; an OPEN that R76 no longer admits goes as HOLD. -/
def resendBay (f : Face) (b : Nat) (s : State) : State :=
  match s.bay? f b with
  | none => s
  | some x =>
      match x.lastCommand with
      | some .open => sendCommand f b (if s.openAllowed f b then .open else .hold) s
      | some .close => sendCommand f b .close s
      | some .hold | none => s

/-- R99: UNFREEZE reaches DS, the line no longer frozen. The bays' commands join the queue in ascending order: the model's
choice (log entry 28). -/
def dsUnfreeze (f : Face) (s : State) : State :=
  let s1 := s.modBays f fun xs => xs.map (rearmBay s (s.face f).config)
  forEach (s1.bayNums f) (resendBay f) s1

/-- R177: a freeze of a face that is not frozen: frozen and break pending are set, and the frozen state is reported to
FI and to DS. -/
def freezeLine (f : Face) (s : State) : State :=
  if (s.face f).line.frozen then s
  else suspendBays f (fiLine f (s.modLine f fun l => { l with frozen := true, breakPending := true }))

/-! ### Deadlines -/

/-- A bay's deadline of a kind has expired: it is armed, not suspended, and reached. -/
def bayDeadlineDue (s : State) (x : Bay) (kind : DeadlineKind) : Bool :=
  match x.deadline with
  | some ⟨k, some t, false⟩ => k == kind && s.reached t
  | _ => false

/-- R90: a motion limit expires; R84: a WARNING deadline expires. An expiry that finds no such deadline due changes
nothing (log entry 2). -/
def expireBay (f : Face) (b : Nat) (kind : DeadlineKind) (s : State) : State :=
  match s.bay? f b with
  | none => s
  | some x =>
      if bayDeadlineDue s x kind then
        match kind with
        | .warning => toClosing f b s
        | .unlock | .open | .close => faultBay f b s
      else s

end Sys2Proof.Machine
end

