-- ==== Sys2Proof/Machine/Sensing.lean ====
section
/-! DEFINITION. The Gap Monitor (chapter 6): the presence list, the overflow marks, what GM hands to DS and FI, and the
clear-hold. -/

namespace Sys2Proof.Machine

/-- The key of a presence record (R102). -/
def Presence.isAt (r : Presence) (f : Face) (b : Nat) (z : Zone) : Bool := r.face == f && r.bay == b && r.zone == z

/-- The record at a key. -/
def State.presenceAt (s : State) (f : Face) (b : Nat) (z : Zone) : Option Presence :=
  s.presence.find? fun r => r.isAt f b z

/-- The state with the record at a key changed in its place. -/
def modPresence (f : Face) (b : Nat) (z : Zone) (g : Presence → Presence) (s : State) : State :=
  { s with presence := s.presence.map fun r => if r.isAt f b z then g r else r }

/-- The record at a key leaves the list. -/
def retirePresence (f : Face) (b : Nat) (z : Zone) (s : State) : State :=
  { s with presence := s.presence.filter fun r => !r.isAt f b z }

/-- R113: a creation or a mark set with the berth VACANT. -/
def tracksideTest (f : Face) (s : State) : State :=
  if (s.face f).berth.state = .vacant then s.latch f .tracksidePresence else s

/-- R108, R109: GM creates a record at the tail, or sets the bay's overflow mark where the list is full; an onset and
the trackside test follow. -/
def createPresence (f : Face) (b : Nat) (z : Zone) (beams : BitVec 4) (s : State) : State :=
  let s1 :=
    if s.presence.length < Config.presenceCapacity then
      { s with
        presence := s.presence ++
          [{ face := f, bay := b, zone := z
             state := match z with
               | .gap => .suspect
               | .edge => .occupied
             onset := s.now
             beams := match z with
               | .gap => some beams
               | .edge => none
             lastSeen := s.now, clearSince := none, clearHold := none, reported := false }] }
    else (s.latch f .presenceOverflow).modBay f b fun x => { x with overflow := true }
  tracksideTest f (onset f b s1)

/-- R105, R107: a record seen interrupted is OCCUPIED; the beam union grows and the clear-hold goes. -/
def Presence.seen (r : Presence) (now : Time) (beams : BitVec 4) : Presence :=
  { r with
    state := .occupied, beams := r.beams.map fun u => u ||| beams, lastSeen := now, clearSince := none
    clearHold := none }

/-- R106: a record enters CLEARING, and its clear-hold deadline is armed. -/
def Presence.clear (r : Presence) (now due : Time) : Presence :=
  { r with state := .clearing, clearSince := some now, clearHold := some ⟨due, false⟩ }

/-- The time at which a clear-hold armed at the present expires (R106). -/
def clearHoldDue (s : State) (f : Face) : Time := s.after (s.face f).config.clearHold

/-- R105, R107, R116: a record of either zone that is not SUSPECT meets a report. -/
def knownZone (f : Face) (b : Nat) (r : Presence) (interrupted : Bool) (beams : BitVec 4) (s : State) : State :=
  if interrupted then modPresence f b r.zone (fun x => x.seen s.now beams) s
  else if r.state = .occupied then modPresence f b r.zone (fun x => x.clear s.now (clearHoldDue s f)) s
  else
    match r.clearHold with
    | some ⟨_, true⟩ => modPresence f b r.zone (fun x => x.clear s.now (clearHoldDue s f)) s
    | _ => s

/-- The overflow mark of an enrolled bay. -/
def State.marked (s : State) (f : Face) (b : Nat) : Bool :=
  match s.bay? f b with
  | some x => x.overflow
  | none => false

/-- R105: the GAP zone of a report. -/
def gapZone (f : Face) (b : Nat) (beams : BitVec 4) (s : State) : State :=
  let interrupted := beams != 0#4
  match s.presenceAt f b .gap with
  | none => if interrupted && !s.marked f b then createPresence f b .gap beams s else s
  | some r =>
      match r.state with
      | .suspect =>
          if interrupted then (modPresence f b .gap (fun x => x.seen s.now beams) s).latch f .presenceNew
          else retirePresence f b .gap s
      | .occupied | .clearing => knownZone f b r interrupted beams s

/-- R107: the EDGE zone of a report. -/
def edgeZone (f : Face) (b : Nat) (made : Bool) (s : State) : State :=
  match s.presenceAt f b .edge with
  | none =>
      if made && !s.marked f b then
        if s.presence.length < Config.presenceCapacity then
          (createPresence f b .edge 0#4 s).latch f .presenceNew
        else createPresence f b .edge 0#4 s
      else s
  | some r => knownZone f b r made 0#4 s

/-- R110: a report that shows both zones clear clears a set overflow mark. -/
def markStep (f : Face) (b : Nat) (beams : BitVec 4) (made : Bool) (s : State) : State :=
  if beams = 0#4 ∧ made = false then s.modBay f b fun x => { x with overflow := false } else s

/-- R111, R112: the end of an event of GM: a clearance to DS and a face presence change to FI, where the event made
one. -/
def gmEvent (f : Face) (b : Nat) (event : State → State) (s : State) : State :=
  let s1 := event s
  let s2 := if s.presenceStanding f b && !s1.presenceStanding f b then clearance f b s1 else s1
  if s2.facePresence f = s.facePresence f then s2 else fiPresence f s2

/-- R104: GM takes a report of an enrolled bay. -/
def gmReport (f : Face) (b : Nat) (beams : BitVec 4) (made : Bool) (s : State) : State :=
  gmEvent f b
    (fun s => entrapmentBay f b (markStep f b beams made (edgeZone f b made (gapZone f b beams s)))) s

/-- R115: the node of a bay enters LOST; the clear-hold of its CLEARING records is suspended. -/
def gmLost (f : Face) (b : Nat) (s : State) : State :=
  { s with
    presence := s.presence.map fun r =>
      if r.face == f && r.bay == b then { r with clearHold := r.clearHold.map fun h => { h with suspended := true } }
      else r }

/-- R106: the clear-hold deadline of a record is due: armed, not suspended, and reached. -/
def clearHoldDueAt (s : State) (r : Presence) : Bool :=
  match r.state, r.clearHold with
  | .clearing, some ⟨t, false⟩ => s.reached t
  | _, _ => false

/-- R106: a clear-hold deadline expires and the record is retired. -/
def clearHoldExpires (f : Face) (b : Nat) (z : Zone) (s : State) : State :=
  match s.presenceAt f b z with
  | some r => if clearHoldDueAt s r then gmEvent f b (retirePresence f b z) s else s
  | none => s

end Sys2Proof.Machine
end

