-- ==== Sys2Proof/Machine/Releases.lean ====
section
/-! DEFINITION. The Release Manager (chapter 7): the release list, tags, activation and quiescence, full lists, and the
coverage and release changes RM hands on. -/

namespace Sys2Proof.Machine

/-- The faces whose attention sets and marks a key concerns: its own, or every face for STATION_EVAC (R125). -/
def ReleaseKey.faces (k : ReleaseKey) : List Face :=
  match k.face? with
  | some f => [f]
  | none => allFaces

/-- The record of a key. -/
def State.releaseOf (s : State) (k : ReleaseKey) : Option Release := s.releases.find? fun r => r.key == k

/-- The record holding a tag. -/
def State.releaseTagged (s : State) (tag : Nat) : Option Release := s.releases.find? fun r => r.tag == tag

/-- The tag after a tag, 255 followed by 1 (R123). -/
def tagAfter (t : Nat) : Nat := if Config.tagMax ≤ t then 1 else t + 1

/-- R123: the first tag from `t` on that no record holds; at most 32 are held, so 33 tries find one. -/
def freeTag (rs : List Release) : Nat → Nat → Nat
  | 0, t => t
  | fuel + 1, t => if rs.any fun r => r.tag == t then freeTag rs fuel (tagAfter t) else t

/-- A kind latched for a key: in its face's set, or in every face's set (R125, R126, R132). -/
def latchKey (k : ReleaseKey) (a : Attn) (s : State) : State := forEach k.faces (fun f s => s.latch f a) s

/-- R132: a creation fails: the overflow marks are set and RELEASE_OVERFLOW latched. -/
def failRelease (k : ReleaseKey) (s : State) : State :=
  forEach k.faces (fun f s => (s.modFace f fun x => { x with releaseOverflow := true }).latch f .releaseOverflow) s

/-- R125: a new record at the tail, with its tag by R123. -/
def createRelease (k : ReleaseKey) (s : State) : State :=
  let tag := freeTag s.releases (Config.releaseCapacity + 1) s.nextTag
  latchKey k .releaseNew
    { s with
      releases := s.releases ++ [{ tag := tag, key := k, active := true, onset := s.now, quiescentSince := none }]
      nextTag := tagAfter tag }

/-- The state with the record of a key changed in its place. -/
def modRelease (k : ReleaseKey) (g : Release → Release) (s : State) : State :=
  { s with releases := s.releases.map fun r => if r.key == k then g r else r }

/-- R125: an activation of a key. -/
def activate (k : ReleaseKey) (s : State) : State :=
  match s.releaseOf k with
  | none => if s.releases.length < Config.releaseCapacity then createRelease k s else failRelease k s
  | some r =>
      if r.active then s
      else latchKey k .releaseNew (modRelease k (fun x => { x with active := true, quiescentSince := none }) s)

/-- R126: a quiescence of a key. -/
def quiesce (k : ReleaseKey) (s : State) : State :=
  match s.releaseOf k with
  | some r =>
      if r.active then
        latchKey k .releaseQuiescent
          (modRelease k (fun x => { x with active := false, quiescentSince := some s.now }) s)
      else s
  | none => s

/-- The record of a key is ACTIVE. -/
def State.activeRelease (s : State) (k : ReleaseKey) : Bool :=
  match s.releaseOf k with
  | some r => r.active
  | none => false

/-- R133: RM hands DS the coverage of each bay of a face whose coverage differs from the one before, in ascending order
(log entry 28). -/
def handFaceCoverage (before : State) (f : Face) (s : State) : State :=
  forEach (s.bayNums f) (fun b t => if before.coverage f b = s.coverage f b then t else dsCoverage f b t) s

/-- R134: RM hands FI a face release change. -/
def handFaceRelease (before : State) (f : Face) (s : State) : State :=
  if before.releaseStanding f = s.releaseStanding f then s else fiRelease f s

/-- R133, R134: an event of RM, followed at its end by the coverage changes and the face release changes it made. -/
def rmEvent (event : State → State) (s : State) : State :=
  forEach allFaces (handFaceRelease s) (forEach allFaces (handFaceCoverage s) (event s))

/-- R128: a TRACK_HANDLE activation that is no mere repetition, with the berth VACANT. -/
def tracksideRelease (f : Face) (b : Nat) (s : State) : State :=
  let key := ReleaseKey.trackHandle f b
  let s1 := activate key s
  if s.activeRelease key = false ∧ (s.face f).berth.state = .vacant then s1.latch f .tracksideRelease else s1

/-- R127: RM takes a report: both handle states are stored, then the platform handle acts, then the track handle. -/
def rmReport (f : Face) (b : Nat) (platform track : Bool) (s : State) : State :=
  rmEvent
    (fun s =>
      let s1 := s.modBay f b fun x => { x with platformHandle := platform, trackHandle := track }
      let s2 := if platform then activate (.platformHandle f b) s1 else quiesce (.platformHandle f b) s1
      if track then tracksideRelease f b s2 else quiesce (.trackHandle f b) s2)
    s

/-- R136: a record leaves the list. -/
def retireRelease (tag : Nat) (s : State) : State :=
  { s with releases := s.releases.filter fun r => r.tag != tag }

/-- R135, case 3: some enrolled bay of the face has a handle OPERATED. -/
def State.handleOperated (s : State) (f : Face) : Bool :=
  (s.face f).bays.any fun x => x.platformHandle || x.trackHandle

end Sys2Proof.Machine
end

