-- ==== Sys2Proof/Machine/Berths.lean ====
section
/-! DEFINITION. The Berth Controller (chapter 3): transitions of the berth with the events they hand to DS, the
alignment result, motion, panel actions, and the taking and answering of a telegram. -/

namespace Sys2Proof.Machine

/-! ### Profile references (R24, R25) -/

/-- The reference count of a profile changed. -/
def modRefs (code : Nat) (g : Nat → Nat) (s : State) : State :=
  { s with profiles := s.profiles.map fun p => if p.code == code then { p with refs := g p.refs } else p }

/-- R24: PT grants a claim: the code is enrolled with the claim's car count. -/
def claimGranted (s : State) (code cars : Nat) : Bool :=
  match s.profile? code with
  | some p => p.cars == cars
  | none => false

/-- R25: the reference of a berth is given back. -/
def releaseReference (f : Face) (s : State) : State :=
  match (s.face f).berth.profile with
  | some code => modRefs code (fun n => n - 1) s
  | none => s

/-! ### Transitions of the berth -/

/-- R31: a change of the berth record that may remove the snapshot: DS is handed a mask-dropped event where it does. -/
def dropChange (f : Face) (g : Berth → Berth) (s : State) : State :=
  berthChange f g (if (s.face f).berth.snapshot.isSome then maskDropped f else id) s

/-- R37, R47: the fields of a berth returned to ANNOUNCED. -/
def Berth.toAnnounced (x : Berth) : Berth :=
  { x with
    state := .announced, standstill := false, ht := none, snapshot := none, cause := none, refusedError := none
    positionWait := none }

/-- R45: the VACANT values; the counters, the last telegram time and the silent flag stay. -/
def Berth.toVacant (x : Berth) : Berth :=
  { Berth.powerOn with
    lastTelegram := x.lastTelegram, silent := x.silent, corrupt := x.corrupt, dropped := x.dropped }

/-- R45, R49, R53: the berth goes VACANT and its profile reference is released. -/
def vacate (f : Face) (s : State) : State := dropChange f Berth.toVacant (releaseReference f s)

/-- R41, R52: the berth goes to OPEN_SERVICE, and DS is handed the open event. -/
def enterService (f : Face) (s : State) : State :=
  berthChange f (fun x => { x with state := .openService }) (openEvent f) s

/-- R42, R52: the berth goes to CLOSING, DS is handed the close event, and closing completion is tested (R43). -/
def enterClosing (f : Face) (s : State) : State :=
  closingTest f (berthChange f (fun x => { x with state := .closing }) (closeEvent f) s)

/-- R41, R52: the conditions of an opening on the berth beyond its state. -/
def Berth.mayOpen (x : Berth) : Bool := x.standstill && !x.moved

/-- The berth states in which an OPEN_REQUEST is taken (R41). -/
def BerthState.opens : BerthState → Bool
  | .aligned | .openService | .closing | .secured => true
  | .vacant | .announced | .standing | .reposition => false

/-! ### Alignment and motion -/

/-- R39: BC takes an alignment result whole. -/
def takeAlignment (f : Face) (r : AlignmentResult) (s : State) : State :=
  match r with
  | .aligned q =>
      let s1 := berthChange f (fun x => { x with state := .aligned, snapshot := some q, positionWait := none }) id s
      if q.quality = .full then s1 else s1.latch f .maskPartial
  | .reposition cause e =>
      berthChange f
        (fun x => { x with state := .reposition, cause := some cause, refusedError := some e, positionWait := none })
        id s

/-- R62: in STANDING a confirmed fusion is aligned at once. -/
def alignStanding (f : Face) (s : State) : State :=
  match (s.face f).au.fusion.head with
  | none => s
  | some h =>
      match computeAlignment s f h with
      | some r => takeAlignment f r s
      | none => s

/-- R48: the moved flag is set, TRAIN_MOVED latched and the line ordered to freeze, once. -/
def serviceMotion (f : Face) (s : State) : State :=
  if (s.face f).berth.moved then s
  else freezeLine f ((s.modBerth f fun x => { x with moved := true }).latch f .trainMoved)

/-- R47 to R49: BC takes a motion event. -/
def motionEvent (f : Face) (s : State) : State :=
  match (s.face f).berth.state with
  | .aligned => (dropChange f Berth.toAnnounced s).latch f .trainMoved
  | .openService | .closing => serviceMotion f s
  | .secured => (vacate f s).latch f .departUnannounced
  | .vacant | .announced | .standing | .reposition => s

/-- R62, R71: AU hands on a fusion result by the berth state. -/
def handFusion (f : Face) (s : State) : State :=
  match (s.face f).berth.state with
  | .standing => alignStanding f s
  | .aligned | .openService | .closing | .secured => if moved s f then motionEvent f s else s
  | .vacant | .announced | .reposition => s

/-- R54: AU stores a marker's reading and performs a fusion. -/
def markerReading (f : Face) (k : Marker) (seen : Bool) (position : Nat) (s : State) : State :=
  handFusion f
    (fusion f (s.modAu f fun a => { a with readings := a.readings.set k (some ⟨seen, position, s.now⟩) }))

/-- R55, R169: a marker's node enters LOST, and its reading is made absent. -/
def auLost (f : Face) (k : Marker) (s : State) : State :=
  s.modAu f fun a => { a with readings := a.readings.set k none }

/-! ### Telegrams -/

/-- R33: an answer joins the tail of the answer queue. -/
def queueAnswer (f : Face) (a : List Byte) (s : State) : State :=
  s.modLink f fun l => { l with answers := l.answers ++ [a] }

/-- R34: after a telegram the silence deadline is armed, or made absent on a VACANT berth. -/
def armSilence (f : Face) (s : State) : State :=
  s.modBerth f fun x =>
    { x with
      silence := if x.state = .vacant then none else some (s.after (s.face f).config.silence) }

/-- R32 to R34: a good telegram. With 4 answers waiting it is dropped and counted; otherwise it is heard, its kind's
rule is applied, the silence deadline is seen to, and its one answer is queued. -/
def takeTelegram (f : Face) (rule : State → State × List Byte) (s : State) : State :=
  let s0 := s.modLink f fun l => { l with receiving := none }
  if Config.answerCapacity ≤ (s.face f).link.answers.length then
    s0.modBerth f fun x => { x with dropped := bump x.dropped }
  else
    let r := rule (s0.modBerth f fun x => { x with lastTelegram := some s.now, silent := false })
    queueAnswer f r.2 (armSilence f r.1)

/-- An answer without data. -/
def plainAnswer (kind : Byte) (code : TrainCode) (s : State) : State × List Byte := (s, trainAnswer kind code [])

/-- R35: the rule of ARRIVE. -/
def ruleArrive (f : Face) (train profile : Nat) (dir : Direction) (cars : Nat) (s : State) : State × List Byte :=
  let x := s.face f
  if ¬(x.fi.mode = .normal ∨ x.fi.mode = .manual) then plainAnswer 1#8 .refusedMode s
  else if x.berth.state ≠ .vacant then plainAnswer 1#8 .refusedState s
  else if (x.config.mark? dir cars).isNone then plainAnswer 1#8 .refusedProfile s
  else if claimGranted s profile cars = false then plainAnswer 1#8 .refusedProfile s
  else
    let announce (b : Berth) : Berth :=
      { b with
        state := .announced, train := some (train % 65536), profile := some profile, dir := some dir
        cars := some cars, standstill := false, moved := false, silent := false, ht := none, snapshot := none
        cause := none, refusedError := none, positionWait := none }
    plainAnswer 1#8 .accepted (berthChange f announce id (modRefs profile (fun n => n + 1) s))

/-- R38: a reported head position is taken when it lies on the face. -/
def reportedHead (c : FaceConfig) (position : Option Nat) : Option Nat :=
  match position, c.lf with
  | some p, some lf => if p ≤ lf then some p else none
  | _, _ => none

/-- R36: the rule of STANDSTILL with yes. -/
def ruleStandstillYes (f : Face) (position : Option Nat) (s : State) : State × List Byte :=
  let x := s.face f
  let ht := reportedHead x.config position
  match x.berth.state with
  | .announced =>
      let wait := s.after x.config.positionWait
      let s1 := fusion f s
      let s2 :=
        berthChange f
          (fun b => { b with state := .standing, standstill := true, ht := ht, positionWait := some wait }) id s1
      plainAnswer 2#8 .accepted (alignStanding f s2)
  | .standing => plainAnswer 2#8 .accepted (s.modBerth f fun b => { b with ht := ht })
  | .aligned | .openService | .closing | .secured => plainAnswer 2#8 .accepted s
  | .reposition | .vacant => plainAnswer 2#8 .refusedState s

/-- R37: the rule of STANDSTILL with no. -/
def ruleStandstillNo (f : Face) (s : State) : State × List Byte :=
  match (s.face f).berth.state with
  | .announced => plainAnswer 2#8 .accepted s
  | .standing | .aligned | .reposition => plainAnswer 2#8 .accepted (dropChange f Berth.toAnnounced s)
  | .openService | .closing =>
      plainAnswer 2#8 .accepted (serviceMotion f (s.modBerth f fun x => { x with standstill := false }))
  | .secured => plainAnswer 2#8 .accepted (s.modBerth f fun x => { x with standstill := false })
  | .vacant => plainAnswer 2#8 .refusedState s

/-- The door match set of a face's snapshot, empty without one (R46). -/
def State.doorSet (s : State) (f : Face) : List Nat :=
  match (s.face f).berth.snapshot with
  | some q => q.doors
  | none => []

/-- R41: the rule of OPEN_REQUEST. -/
def ruleOpenRequest (f : Face) (s : State) : State × List Byte :=
  let x := s.face f
  if x.fi.mode ≠ .normal then plainAnswer 3#8 .refusedMode s
  else if x.berth.state.opens = false then plainAnswer 3#8 .refusedState s
  else if x.berth.mayOpen = false then plainAnswer 3#8 .refusedState s
  else (enterService f s, trainAnswer 3#8 .accepted (trainDoorSet (s.doorSet f)))

/-- R42: the rule of CLOSE_REQUEST. -/
def ruleCloseRequest (f : Face) (s : State) : State × List Byte :=
  let x := s.face f
  if x.fi.mode = .manual ∨ x.fi.mode = .evacuation then plainAnswer 4#8 .refusedMode s
  else
    match x.berth.state with
    | .openService => plainAnswer 4#8 .accepted (enterClosing f s)
    | .closing | .secured => plainAnswer 4#8 .accepted s
    | .vacant | .announced | .standing | .aligned | .reposition => plainAnswer 4#8 .refusedState s

/-- R44, R129: the rule of EMERGENCY_RELEASE. -/
def ruleEmergencyRelease (f : Face) (on : Bool) (s : State) : State × List Byte :=
  if (s.face f).berth.state = .vacant then plainAnswer 5#8 .refusedState s
  else plainAnswer 5#8 .accepted (rmEvent (if on then activate (.trainRequest f) else quiesce (.trainRequest f)) s)

/-- R45: the rule of DEPART. -/
def ruleDepart (f : Face) (s : State) : State × List Byte :=
  match (s.face f).berth.state with
  | .secured => plainAnswer 6#8 .accepted (vacate f s)
  | .vacant => plainAnswer 6#8 .refusedState s
  | .announced | .standing | .aligned | .reposition | .openService | .closing =>
      plainAnswer 6#8 .notSecured (s.latch f .unsafeDepart)

/-- R46: the rule of STATUS_QUERY. -/
def ruleStatusQuery (f : Face) (s : State) : State × List Byte :=
  let x := s.face f
  let flags := (if s.releaseStanding f then 1 else 0) + (if x.fi.proving then 2 else 0)
  (s, trainAnswer 7#8 .status
    ([chr x.berth.state.code, qualityItem (x.berth.snapshot.map Snapshot.quality)] ++ trainDoorSet (s.doorSet f) ++
      [chr flags]))

/-- R32: a telegram left incomplete for more than 50 ms. -/
def telegramGapDue (s : State) (f : Face) : Bool :=
  match (s.face f).link.receiving with
  | some p => decide (Config.telegramGap < s.age p.lastAt)
  | none => false

/-- R32: a corrupt telegram is discarded and counted; an opening character inside it starts a new telegram (R199). -/
def takeCorrupt (f : Face) (cause : CorruptCause) (s : State) : State :=
  let receiving :=
    match cause with
    | .judged => none
    | .newOpening => some ⟨[cleanChar Config.opening], s.now⟩
  (s.modLink f fun l => { l with receiving := receiving }).modBerth f fun x => { x with corrupt := bump x.corrupt }

/-! ### Panel actions (R52) -/

/-- R52: BC takes a panel OPEN and reports whether the mask is open. -/
def panelOpen (f : Face) (s : State) : State × Bool :=
  let x := (s.face f).berth
  if x.state.opens && x.mayOpen then (enterService f s, true) else (s, false)

/-- R52: BC takes a panel CLOSE. -/
def panelCloseBerth (f : Face) (s : State) : State :=
  if (s.face f).berth.state = .openService then enterClosing f s else s

end Sys2Proof.Machine
end

