-- ==== Sys2Proof/Machine/BayLine.lean ====
section
/-! DEFINITION. The Bay Line Controller (chapter 9): link health, the end of a transaction, poll lists, the arbiter,
headers, and breaks and preambles. -/

namespace Sys2Proof.Machine

/-! ### Link health (R167 to R169) -/

/-- R167, R168: a node record after a success or a failure. -/
def Node.after (n : Node) (ok : Bool) : Node :=
  if n.link = .lost then
    if ok then
      if Config.recoveryRun ≤ n.run + 1 then { n with errors := 0, run := 0, link := .linked }
      else { n with run := n.run + 1 }
    else { n with errors := min Config.errorMax (n.errors + Config.failureCost), run := 0 }
  else
    let count := if ok then n.errors - 1 else min Config.errorMax (n.errors + Config.failureCost)
    let link : LinkState :=
      if Config.lostAt ≤ count then .lost else if Config.marginalAt ≤ count then .marginal else .linked
    { n with errors := count, link := link, run := 0 }

/-- The state with the node record of an address changed. -/
def modNode (f : Face) (a : Nat) (g : Node → Node) (s : State) : State :=
  s.modLine f fun l => l.setNode a (g (l.node a))

/-- R169: the entry of a node to LOST is handed to FI, then to DS and GM for an enrolled bay, or to AU for a marker. -/
def enterLost (f : Face) (a : Nat) (s : State) : State :=
  let s1 := fiNode f s
  match markerAt? a with
  | some k => auLost f k s1
  | none => if (s.bay? f a).isSome then gmLost f a (dsLost f a s1) else s1

/-- R167 to R169: link health after a LIST or MARKER transaction to an address, with the attention and the hand-ons of
a change of link state. -/
def linkHealth (f : Face) (a : Nat) (ok : Bool) (s : State) : State :=
  let n := (s.face f).line.node a
  let n' := n.after ok
  let s1 := modNode f a (fun _ => n') s
  match n.link, n'.link with
  | .linked, .marginal => s1.latch f .linkMarginal
  | .linked, .lost | .marginal, .lost => enterLost f a (s1.latch f .linkLost)
  | .lost, .linked => fiNode f s1
  | .linked, .linked | .marginal, .linked | .marginal, .marginal | .lost, .marginal | .lost, .lost => s1

/-! ### The end of a transaction (R166) -/

/-- A node's reports are taken while it is LINKED or MARGINAL (R54, R77, R104, R127). -/
def reportsTaken (s : State) (f : Face) (a : Nat) : Bool := ((s.face f).line.node a).link != .lost

/-- R166: a bay STATUS response goes to DS, to GM and to RM, each as its own event. -/
def handBayResponse (f : Face) (b : Nat) (r : BayResponse) (s : State) : State :=
  if (s.bay? f b).isSome && reportsTaken s f b then
    rmReport f b r.platformHandle r.trackHandle (gmReport f b r.beams r.edge (dsReport f b r.report s))
  else s

/-- R166: a success hands on its response: an IDENT response is stored as the node's identity; a STATUS response of a
LIST or MARKER transaction goes to the blocks that own what it reports. -/
def handResponse (f : Face) (t : Transaction) (data : List Byte) (s : State) : State :=
  match t.function with
  | .ident => modNode f t.address (fun n => { n with identity := some data }) s
  | .status =>
      if t.cls = .list ∨ t.cls = .marker then
        match markerAt? t.address with
        | some k =>
            if reportsTaken s f t.address then
              let r := readMarkerResponse data
              markerReading f k r.1 r.2 s
            else s
        | none => handBayResponse f t.address (readBayResponse data) s
      else s
  | .open | .close | .hold => s

/-- R182: the pass transaction ends with its result. A request placed since a restart ended its slot (R184) waits on. -/
def endPass (f : Face) (o : TxOutcome) (data : List Byte) (s : State) : State :=
  s.modLine f fun l =>
    { l with
      passSlot :=
        match l.passSlot with
        | .inFlight r => .ended r o data
        | .empty => .empty
        | .waiting r => .waiting r
        | .ended r o' d => .ended r o' d }

/-- R173: the discipline of the running list is applied at a pass end. -/
def applyDiscipline (f : Face) (s : State) : State :=
  let l := (s.face f).line
  let top := s.modLine f fun l => { l with position := 1 }
  match l.running with
  | none => s
  | some p =>
      match p.discipline, l.staged with
      | .repeat, _ => top
      | .chain, some q =>
          (top.modLine f fun l => { l with running := some q, staged := none }).latch f .stageTaken
      | .chain, none =>
          if l.starved then top
          else (top.modLine f fun l => { l with starved := true }).latch f .chainStarved

/-- R173: the position moves on after a LIST transaction; the last entry ends the pass, FI is handed the pass end, and
the discipline is applied. A new running list may name other markers (R73). -/
def advanceList (f : Face) (s : State) : State :=
  let l := (s.face f).line
  match l.running with
  | none => s
  | some p =>
      if l.position < p.entries.length then s.modLine f fun l => { l with position := l.position + 1 }
      else auRefresh f (applyDiscipline f (fiPassEnd f s))

/-- R164, R166: a response transaction ends with an outcome: the node's last outcome, link health, the response handed
on, the report to AU or the pass slot, and the place in the list. AU takes its report before a staged list is taken at the
pass end: the model's choice (log entry 4). -/
def endTransaction (f : Face) (t : Transaction) (o : TxOutcome) (data : List Byte) (s : State) : State :=
  let s0 := s.modLine f fun l => { l with tx := none }
  let s1 := modNode f t.address (fun n => { n with last := some ⟨o, s.now⟩ }) s0
  let s2 := if t.cls = .list ∨ t.cls = .marker then linkHealth f t.address (o == .success) s1 else s1
  let s3 := if o = .success then handResponse f t data s2 else s2
  match t.cls with
  | .list => if t.inPass then advanceList f (auListEnd f s3) else auListEnd f s3
  | .marker => auMarkerEnd f s3
  | .pass => endPass f o data s3
  | .command => s3

/-- R164, R177, R184: a break or a restart abandons the transaction in flight and closes any window. -/
def abandonTransaction (f : Face) (s : State) : State :=
  let s1 := s.modLine f fun l => { l with tx := none, late := none, stopping := false, abandoning := false }
  match (s.face f).line.tx with
  | none => s1
  | some t =>
      let s2 :=
        if t.cls = .command then s1
        else modNode f t.address (fun n => { n with last := some ⟨.abandoned, s.now⟩ }) s1
      if t.cls = .pass then endPass f .abandoned [] s2 else s2

/-! ### The arbiter (R174 to R176) -/

/-- R174: an entry of the command queue may go out. -/
def mayGo (l : Line) (q : QueuedCommand) : Bool := !l.frozen || q.command == .hold

/-- R174: COMMAND is raised. -/
def Line.commandRaised (l : Line) : Bool := l.queue.any (mayGo l)

/-- R174: a class that the arbiter orders is raised. -/
def raised (s : State) (f : Face) : PollClass → Bool
  | .marker => (s.face f).au.markerRequest
  | .list => (s.face f).line.enabled && (s.face f).line.running.isSome
  | .pass =>
      match (s.face f).line.passSlot with
      | .waiting _ => true
      | .empty | .inFlight _ | .ended _ _ _ => false

/-- R175: the order under FIXED: MARKER, LIST, PASS with the lowest class moved to the end. -/
def fixedOrder : PollClass → List PollClass
  | .pass => [.marker, .list, .pass]
  | .list => [.marker, .pass, .list]
  | .marker => [.list, .pass, .marker]

/-- R175: the order of the face's discipline. -/
def classOrder (x : FaceState) : List PollClass :=
  match x.config.arbiter with
  | .fixed => fixedOrder x.config.lowest
  | .rotate => x.line.rotation

/-- R175: under ROTATE the class served moves to the end of the rotation order. -/
def rotate (f : Face) (c : PollClass) (s : State) : State :=
  match (s.face f).config.arbiter with
  | .fixed => s
  | .rotate => s.modLine f fun l => { l with rotation := l.rotation.filter (fun d => d != c) ++ [c] }

/-- R162: the header of a transaction begins. -/
def beginPoll (f : Face) (cls : TxClass) (a : Nat) (fn : LineFunction) (s : State) : State :=
  s.modLine f fun l =>
    { l with
      tx := some
        { cls := cls, address := a, function := fn, bays := [], header := pollHeader a fn (s.warningOn f a)
          window := none, received := [], inPass := true } }

/-- R173 to R175, R182: the arbiter serves a class. -/
def servePoll (f : Face) (c : PollClass) (s : State) : State :=
  let l := (s.face f).line
  match c with
  | .marker => rotate f .marker (beginPoll f .marker (markerAddress (s.face f).au.nextMarker) .status s)
  | .list =>
      match l.running with
      | none => s
      | some p =>
          match p.entries[l.position - 1]? with
          | some e => rotate f .list (beginPoll f .list e.address e.function.line s)
          | none => s
  | .pass =>
      match l.passSlot with
      | .waiting r =>
          rotate f .pass
            (beginPoll f .pass r.address r.function.line (s.modLine f fun l => { l with passSlot := .inFlight r }))
      | .empty | .inFlight _ | .ended _ _ _ => s

/-- R176, step 1: a waiting OPEN that R76 no longer admits becomes HOLD in its place. -/
def admitQueue (s : State) (f : Face) : List QueuedCommand :=
  (s.face f).line.queue.map fun q =>
    if q.command = .open ∧ s.openAllowed f q.bay = false then { q with command := .hold } else q

/-- R176: one command header is formed from the queue: the function of the oldest entry that may go out, and every
entry that may go out with it. -/
def serveCommand (f : Face) (s : State) : State :=
  let l := { (s.face f).line with queue := admitQueue s f }
  match l.queue.find? (mayGo l) with
  | none => s
  | some q =>
      let goes (e : QueuedCommand) : Bool := mayGo l e && e.command == q.command
      let bays := (l.queue.filter goes).map QueuedCommand.bay
      let address := match bays with
        | [b] => b
        | _ => 0
      s.modLine f fun x =>
        { x with
          queue := l.queue.filter fun e => !goes e
          tx := some
            { cls := .command, address := address, function := q.command.line, bays := bays
              header := commandHeader bays q.command, window := none, received := [], inPass := false } }

/-- R175: the arbiter chooses one class. -/
def arbitrate (f : Face) (s : State) : State :=
  if (s.face f).line.commandRaised then serveCommand f s
  else
    match (classOrder (s.face f)).find? (raised s f) with
    | some c => servePoll f c s
    | none => s

/-- The BLC begins a preamble (R178). -/
def beginPreamble (f : Face) (s : State) : State :=
  s.modLine f fun l => { l with signal := .preamble, preambleDue := false }

/-- R162, R178, R181: the line has become free: a stopping line stops; an enabled line with no break to send and no
signal sends a preamble it owes, or arbitrates. -/
def lineFree (f : Face) (s : State) : State :=
  let l := (s.face f).line
  let s1 := s.modLine f fun l => { l with stopping := false }
  if l.enabled = false ∨ l.breakPending ∨ l.breakOwed ∨ l.signal ≠ .none then s1
  else if l.preambleDue then beginPreamble f s1
  else arbitrate f s1

/-- R184: the character in progress at a restart has ended: the transaction is abandoned, and the line is free. -/
def abandonAtEnd (f : Face) (s : State) : State := lineFree f (abandonTransaction f s)

/-! ### Line events -/

/-- R162, R163: a header ends: a command transaction ends in success and frees the line; any other opens its response
window with its timeout. One that a restart abandons ends here (R184). -/
def headerEnds (f : Face) (s : State) : State :=
  match (s.face f).line.tx with
  | some t =>
      if t.window.isSome then s
      else if (s.face f).line.abandoning then abandonAtEnd f s
      else if t.cls = .command then lineFree f (s.modLine f fun l => { l with tx := none })
      else
        let limit := timeoutBits (responseLength t.address t.function) (s.face f).config.turnaround
        s.modLine f fun l => { l with tx := some { t with window := some ⟨s.now, limit⟩ } }
  | none => s

/-- R162: a window whose outcome was decided earlier closes, and the line becomes free. -/
def closeLate (f : Face) (s : State) : State := lineFree f (s.modLine f fun l => { l with late := none })

/-- R162, R164: the (R + 1)th character of a window: it closes the window, and a transaction not yet decided ends in
success or CHECK; one that a restart abandons ends abandoned, also where this was the character in progress (R184, log
entry 34). -/
def responseCompletes (f : Face) (chars : List Byte) (s : State) : State :=
  match (s.face f).line.tx with
  | some t =>
      let r := responseLength t.address t.function
      if t.window.isSome ∧ chars.length = r + 1 then
        if (s.face f).line.abandoning then abandonAtEnd f s
        else if checks256 chars then lineFree f (endTransaction f t .success (chars.take r) s)
        else lineFree f (endTransaction f t .check [] s)
      else s
  | none =>
      match (s.face f).line.late with
      | some w => if chars.length = w.size then closeLate f s else s
      | none => s

/-- R164: the outcome that a faulted character gives; a stop bit of 0 comes before a marker bit of 1. -/
def faultOutcome (stopBit : Bool) : TxOutcome := if stopBit then .length else .framing

/-- R162: a faulted character of a window whose outcome was decided earlier counts among its characters. -/
def lateFaults (f : Face) (s : State) : State :=
  match (s.face f).line.late with
  | some w =>
      if w.arrived + 1 < w.size then
        s.modLine f fun l => { l with late := some { w with arrived := w.arrived + 1 } }
      else closeLate f s
  | none => s

/-- R164: a response character with a fault, the next after those collected, ends the transaction. As the (R + 1)th it
closes the window too; after an earlier one the window stays open (R162). A transaction that a restart abandons ends
abandoned (R184). -/
def characterFaults (f : Face) (stopBit marker : Bool) (s : State) : State :=
  if stopBit = true ∧ marker = false then s
  else
    match (s.face f).line.tx with
    | some t =>
        let size := responseLength t.address t.function + 1
        let arrived := t.received.length + 1
        match t.window with
        | some w =>
            if (s.face f).line.abandoning then abandonAtEnd f s
            else if arrived < size then
              endTransaction f t (faultOutcome stopBit) []
                (s.modLine f fun l => { l with late := some ⟨w, size, arrived⟩ })
            else lineFree f (endTransaction f t (faultOutcome stopBit) [] s)
        | none => s
    | none => lateFaults f s

/-- R164: the response timeout expires: TIMEOUT where no outcome was decided; the window closes. A transaction that a
restart abandons waits for the end of the character in progress (R184, log entry 34). -/
def timesOut (f : Face) (s : State) : State :=
  match (s.face f).line.tx with
  | some t =>
      if t.window.isSome ∧ (s.face f).line.abandoning = false then lineFree f (endTransaction f t .timeout [] s)
      else s
  | none => if (s.face f).line.late.isSome then closeLate f s else s

/-- R165: a character outside every window, the BLC not sending, is counted. -/
def strays (f : Face) (s : State) : State :=
  let l := (s.face f).line
  if l.tx.isNone ∧ l.late.isNone ∧ l.signal = .none then
    s.modLine f fun l => { l with stray := bump l.stray }
  else s

/-- R177: a pending break goes out and abandons an undecided transaction. -/
def breakStarts (f : Face) (s : State) : State :=
  let l := (s.face f).line
  if (l.breakPending ∨ l.breakOwed) ∧ l.signal = .none then
    (abandonTransaction f s).modLine f fun l =>
      { l with signal := .break, breakPending := false, breakOwed := false }
  else s

/-- R178: at the end of a break the preamble goes out; a second break that waits goes out first. -/
def breakEnds (f : Face) (s : State) : State :=
  let l := (s.face f).line
  if l.signal = .break then
    if l.breakPending ∨ l.breakOwed then s.modLine f fun l => { l with signal := .none } else beginPreamble f s
  else s

/-- R178: at the end of a preamble an enabled line starts the running list at position 1 and is free. -/
def preambleEnds (f : Face) (s : State) : State :=
  let l := (s.face f).line
  if l.signal = .preamble then
    lineFree f (s.modLine f fun l =>
      { l with signal := .none, position := if l.enabled then 1 else l.position })
  else s

/-- R180: the preamble of a LINE_ENABLE or a restart goes out at once, or after what is still going out. -/
def owePreamble (f : Face) (s : State) : State :=
  let l := (s.face f).line
  if l.tx.isNone ∧ l.late.isNone ∧ l.signal = .none ∧ l.breakPending = false ∧ l.breakOwed = false then
    beginPreamble f s
  else s.modLine f fun l => { l with preambleDue := true }

/-! ### Restart of a line (R184) -/

/-- R184, R182: the pass slot after a restart: a request waiting or in flight ends ABANDONED, and an ENDED result, which
stays until a restart, is gone (log entry 26). -/
def PassSlot.restarted : PassSlot → PassSlot
  | .waiting r | .inFlight r => .ended r .abandoned []
  | .empty | .ended _ _ _ => .empty

/-- R184: a character is in progress on the line of a transaction not yet decided: its header is being sent, or a character
waits at BLRX in its window (log entry 34). -/
def FaceState.charInProgress (x : FaceState) : Bool :=
  match x.line.tx with
  | some t => t.window.isNone || !x.blrx.isEmpty
  | none => false

/-- R184: at a restart the transaction not yet decided is abandoned at the end of the character in progress, at once where
there is none. A window still open after its outcome closes at once (R162). -/
def abandonAtRestart (f : Face) (s : State) : State :=
  if (s.face f).charInProgress then s.modLine f fun l => { l with late := none, abandoning := true }
  else abandonTransaction f s

/-- R184: a restarted line. A break pending is still sent whole (`breakOwed`). -/
def restartLine (f : Face) (s : State) : State :=
  let s1 := abandonAtRestart f s
  let s2 := s1.modLine f fun l =>
    { l with
      frozen := false, stopping := false, breakOwed := l.breakOwed || l.breakPending, breakPending := false
      preambleDue := false, starved := false, queue := [], rotation := [.marker, .list, .pass]
      passSlot := (s.face f).line.passSlot.restarted
      stray := 0
      nodes := l.nodes.map fun n => { n with errors := 0, link := .linked, run := 0 } }
  if (s2.face f).line.enabled then owePreamble f s2 else s2

end Sys2Proof.Machine
end

