-- ==== Sys2Proof/Machine/Ports.lean ====
section
/-! DEFINITION. The Supervisory Port (chapter 10): the characters it sends, the taking of a request, the placing of its
answer, the fetch, and the requests it answers itself. -/

namespace Sys2Proof.Machine

/-! ### What the port sends (R186, R189) -/

/-- R186: the port status, formed from the port state at the fall of SVCS: answer present, working, overrun, attention,
and the fixed pattern 0101 (11, Supervisory frames). -/
def statusChar (s : State) : Byte :=
  chr ((if s.port.state = .answerReady then 128 else 0) + (if s.port.state = .working then 64 else 0) +
    (if s.port.overrun then 32 else 0) + (if s.attnStanding then 16 else 0) + 5)

/-- 11, Answer frame: the characters of an answer with the overrun mark as it stands. -/
def Answer.frame (a : Answer) (overrun : Bool) : List Byte :=
  withCheck256
    ([a.kind, a.cls, a.key.k1, a.key.k2, a.key.k3, chr a.code.code, if overrun then 1#8 else 0#8,
      chr (a.data.length / 256), chr a.data.length] ++ a.data)

/-- R186, R189: what the fall of SVCS fixes in a state. -/
def exchangeStart (s : State) : ExchangeStart where
  status := statusChar s
  frame := if s.port.state = .answerReady then s.port.answer.map fun a => a.frame s.port.overrun else none

/-- What the fall of SVCS fixed for the exchange whose command is taken now; an exchange sent whole as a command begins at
the present (log entry 31). -/
def State.started (s : State) : ExchangeStart := s.port.begun.getD (exchangeStart s)

/-- The characters of an exchange of `n` whole characters that is no fetch of an answer: the status character and then
all ones. -/
def idleChars (s : State) (n : Nat) : List Byte := (s.started.status :: List.replicate n 255#8).take n

/-- R186: the exchange that carries `n` characters, none of them an answer, is sent. -/
def exchanged (n : Nat) (s : State) : State :=
  { s with port := { s.port with svdo := idleChars s n, begun := none } }

/-! ### Requests (R188, R190) -/

/-- What an owner answers: the code and the data. -/
structure Reply where
  code : AnswerCode
  data : List Byte
  deriving DecidableEq, Repr

/-- An answer code without data. -/
def reply (c : AnswerCode) : Reply := ⟨c, []⟩

/-- 11, Request frame: the characters of a request frame: eight before its data, and the check. -/
def Request.length (r : Request) : Nat := 9 + r.data.length

/-- R188: the answer is placed in the buffer, and the port goes to ANSWER_READY. -/
def placeAnswer (kind cls : Byte) (key : Key) (r : Reply) (s : State) : State :=
  { s with
    port := { s.port with state := .answerReady, request := none, answer := some ⟨kind, cls, key, r.code, r.data⟩ } }

/-- R190: a frame taken while the port is not IDLE is discarded and the overrun mark set. -/
def overrun (s : State) : State := { s with port := { s.port with overrun := true } }

/-- R188: the request becomes the one being worked on, and the port goes to WORKING. -/
def beginWork (q : Request) (s : State) : State :=
  { s with port := { s.port with state := .working, request := some q } }

/-- R188, R190: a well-formed request frame is taken. In IDLE its owner works it whole and the answer is placed; in any
other port state it is an overrun. -/
def serve (q : Request) (work : State → State × Reply) (s : State) : State :=
  let s1 := exchanged q.length s
  match s.port.state with
  | .idle =>
      let r := work (beginWork q s1)
      placeAnswer q.kind q.cls q.key r.2 r.1
  | .working | .answerReady => overrun s1

/-- A request whose key names a face: outside F0 to F3 it is answered NO_RECORD. -/
def onFace (key : Key) (work : Face → State → State × Reply) (s : State) : State × Reply :=
  match faceOf key.k1 with
  | some f => work f s
  | none => (s, reply .noRecord)

/-- R197: the data decoded as the selector or the order asks; data of any other length or coding is answered
BAD_REQUEST, and nothing is changed. -/
def decoded {α : Type} (x : Option α) (work : α → State → State × Reply) (s : State) : State × Reply :=
  match x with
  | some v => work v s
  | none => (s, reply .badRequest)

/-- R197: a request that carries no data. -/
def noData (data : List Byte) (work : State → State × Reply) (s : State) : State × Reply :=
  if data = [] then work s else (s, reply .badRequest)

/-- An answer from the records as they stand, nothing changed. -/
def answer (c : AnswerCode) (data : List Byte) (s : State) : State × Reply := (s, ⟨c, data⟩)

/-! ### The fetch (R189) -/

/-- R189: a FETCH exchange in which `clocked` whole characters are clocked, the status character among them. It acts by the
port state at the fall of SVCS. A whole answer clocked out empties the buffer and clears the overrun mark. What is clocked
beyond the answer frame reads all ones: the model's choice (log entry 30). -/
def fetchExchange (clocked : Nat) (s : State) : State :=
  if clocked = 0 then s
  else
    match s.started.frame with
    | some frame =>
        let chars := s.started.status :: frame
        let port := { s.port with
          svdo := (chars ++ List.replicate clocked 255#8).take clocked, begun := none }
        if chars.length ≤ clocked then { s with port := { port with state := .idle, answer := none, overrun := false } }
        else { s with port := port }
    | none => exchanged clocked s

/-! ### Frames the port answers itself (R187, R191, R192) -/

/-- R197: the characters of a request frame that the port keeps. An exchange of more characters is judged by the kept ones
alone: the model's choice (log entry 32). -/
def keptChars (cs : List Byte) : List Byte := cs.take Config.frameMax

/-- R187: a request frame of whole characters that is well formed. -/
def wellFormedFrame (cs : List Byte) : Bool :=
  decide (9 ≤ cs.length) && decide (1 ≤ (charAt cs 1).toNat ∧ (charAt cs 1).toNat ≤ 5) &&
    decide ((charAt cs 7).toNat * 256 + (charAt cs 8).toNat ≤ Config.frameDataMax) &&
    decide (cs.length = 9 + ((charAt cs 7).toNat * 256 + (charAt cs 8).toNat)) && checks256 cs

/-- R187, R197: a frame that is malformed: at least one whole character, not a FETCH, and what is kept of it not well
formed. -/
def malformed (cs : List Byte) : Bool := decide (cs ≠ []) && charAt cs 1 != 6#8 && !wellFormedFrame (keptChars cs)

/-- A character of a malformed frame for its answer; one the frame does not hold is a free value (log entry 11). -/
def echoChar (cs : List Byte) (k free : Nat) : Byte := (cs[k - 1]?).getD (Config.absentFrameCharacter (free + k))

/-- R187: a malformed frame taken in IDLE is answered BAD_REQUEST by the port itself. -/
def takeMalformed (cs : List Byte) (s : State) : State :=
  if malformed cs then
    let s1 := exchanged cs.length s
    match s.port.state with
    | .idle =>
        let key : Key := ⟨echoChar cs 3 s.freeCount, echoChar cs 4 s.freeCount, echoChar cs 5 s.freeCount⟩
        let s2 := placeAnswer (charAt cs 1) (echoChar cs 2 s.freeCount) key (reply .badRequest) s1
        { s2 with freeCount := s.freeCount + 6 }
    | .working | .answerReady => overrun s1
  else s

/-- R190: a request frame, judged or not, taken while the port is WORKING or ANSWER_READY. -/
def takeOverrun (cs : List Byte) (s : State) : State :=
  if cs ≠ [] ∧ charAt cs 1 ≠ 6#8 ∧ s.port.state ≠ .idle then overrun (exchanged cs.length s) else s

/-- R191, R192, R2, R20, R171: the requests that an owner or the port admits, by kind, class and selector. What is not
admitted is answered BAD_REQUEST; a selector that R2, R11 or R20 tests for itself is judged there. -/
def admitted (kind cls sel : Byte) : Bool :=
  match kind.toNat, cls.toNat with
  | 1, c => decide (1 ≤ c ∧ c ≤ 9)
  | 2, 1 | 2, 2 | 2, 3 => true
  | 2, 7 => sel == 1#8 || sel == 3#8
  | 3, 2 | 3, 3 => true
  | 4, 2 | 4, 3 | 4, 4 => true
  | 4, 7 => sel == 1#8 || sel == 2#8
  | 5, _ => decide (1 ≤ sel.toNat ∧ sel.toNat ≤ 17)
  | _, _ => false

/-- R191, R192, R171: a well-formed request that is not admitted. A request of class POLL_LIST first has its face key
tested. -/
def workUnadmitted (kind cls : Byte) (key : Key) (s : State) : State × Reply :=
  if cls = 7#8 ∧ kind ≠ 5#8 then onFace key (fun _ s => (s, reply .badRequest)) s
  else (s, reply .badRequest)

end Sys2Proof.Machine
end

