-- ==== Sys2Proof/Machine/BerthCommands.lean ====
section
/-! DEFINITION. The commands of berths and train links (chapter 3): LOOKUP and RETIRE BERTH, the telegrams, and the
berth's timers. -/

namespace Sys2Proof.Machine

/-! ### Supervisory access (R29, R53) -/

/-- The alignment snapshot as data. -/
def Snapshot.encode (q : Snapshot) : List Byte :=
  snum q.hUsed ++ snum q.stopError ++ [chr q.quality.code] ++ baySet q.mask ++ doorSet q.doors

/-- R29, R197: the berth record, field by field in the order of its table. -/
def Berth.encode (x : Berth) : List Byte :=
  [chr x.state.code] ++ optional num x.train ++ optional num x.profile ++
    optional (fun d : Direction => [chr (directionCode d)]) x.dir ++ optional num x.cars ++ yesNo x.standstill ++
    optional num x.ht ++ optional Snapshot.encode x.snapshot ++
    optional (fun c : RepositionCause => [chr c.code]) x.cause ++ optional snum x.refusedError ++ yesNo x.moved ++
    optional timeNum x.positionWait ++ optional timeNum x.lastTelegram ++ optional timeNum x.silence ++
    yesNo x.silent ++ num x.corrupt ++ num x.dropped

/-- R29: LOOKUP BERTH; after the answer is formed, both counters are set to 0. -/
def lookupBerthWork (f : Face) (s : State) : State × Reply :=
  (s.modBerth f fun x => { x with corrupt := 0, dropped := 0 }, ⟨.done, (s.face f).berth.encode⟩)

/-- LOOKUP_BERTH (R29): returns the berth record, then sets the corrupt-telegram and dropped-telegram counters to 0.
-/
def execLookupBerth (key : Key) (data : List Byte) (s : State) : Host.Outcome State Fault Refusal :=
  live s (serve ⟨1#8, 4#8, key, 0#8, data⟩ (onFace key fun f => noData data (lookupBerthWork f)))

/-- R53: RETIRE BERTH. -/
def retireBerthWork (f : Face) (s : State) : State × Reply :=
  if (s.face f).berth.state = .vacant then (s, reply .noRecord)
  else if s.allSecure f then (vacate f s, reply .done)
  else (s, reply .inUse)

/-- RETIRE_BERTH (R53): makes a non-VACANT berth VACANT and releases its profile reference, provided every bay of the
face is secure. -/
def execRetireBerth (key : Key) (data : List Byte) (s : State) : Host.Outcome State Fault Refusal :=
  live s (serve ⟨4#8, 4#8, key, 0#8, data⟩ (onFace key fun f => noData data (retireBerthWork f)))

/-! ### Telegrams -/

/-- ARRIVE (R35): announces a train: after the mode, berth, stop mark and profile claim checks, the berth goes to
ANNOUNCED. -/
def execArrive (f : Face) (train profile : Nat) (dir : Direction) (cars : Nat) (s : State) :
    Host.Outcome State Fault Refusal :=
  live s (takeTelegram f (ruleArrive f train profile dir cars))

/-- STANDSTILL_YES (R36): the train reports standstill: ANNOUNCED goes to STANDING, the position wait is armed, and
the alignment runs at once if a fused position is confirmed. -/
def execStandstillYes (f : Face) (position : Option Nat) (s : State) : Host.Outcome State Fault Refusal :=
  live s (takeTelegram f (ruleStandstillYes f position))

/-- R37: the reported position of a STANDSTILL no is not stored. -/
def execStandstillNo (f : Face) (_position : Option Nat) (s : State) : Host.Outcome State Fault Refusal :=
  live s (takeTelegram f (ruleStandstillNo f))

/-- OPEN_REQUEST (R41): in NORMAL, opens an aligned berth to OPEN_SERVICE and answers with the door match set. -/
def execOpenRequest (f : Face) (s : State) : Host.Outcome State Fault Refusal :=
  live s (takeTelegram f (ruleOpenRequest f))

/-- CLOSE_REQUEST (R42): moves an OPEN_SERVICE berth to CLOSING and hands DS the close event. -/
def execCloseRequest (f : Face) (s : State) : Host.Outcome State Fault Refusal :=
  live s (takeTelegram f (ruleCloseRequest f))

/-- EMERGENCY_RELEASE_ON (R44): the train asks for release: RM is handed an activation of the face's TRAIN_REQUEST
record. -/
def execEmergencyReleaseOn (f : Face) (s : State) : Host.Outcome State Fault Refusal :=
  live s (takeTelegram f (ruleEmergencyRelease f true))

/-- EMERGENCY_RELEASE_OFF (R44): the train withdraws its release: RM is handed a quiescence of the face's
TRAIN_REQUEST record. -/
def execEmergencyReleaseOff (f : Face) (s : State) : Host.Outcome State Fault Refusal :=
  live s (takeTelegram f (ruleEmergencyRelease f false))

/-- DEPART (R45): A SECURED berth goes VACANT and releases its profile; in other occupied states the answer is
NOT_SECURED. -/
def execDepart (f : Face) (s : State) : Host.Outcome State Fault Refusal :=
  live s (takeTelegram f (ruleDepart f))

/-- STATUS_QUERY (R46): answers STATUS with the berth state, quality, door match set, released flag and proven flag.
-/
def execStatusQuery (f : Face) (s : State) : Host.Outcome State Fault Refusal :=
  live s (takeTelegram f (ruleStatusQuery f))

/-- CORRUPT_TELEGRAM (R32): A telegram with a parity, stop bit, kind, check or coding fault is discarded and counted.
-/
def execCorruptTelegram (f : Face) (cause : CorruptCause) (s : State) : Host.Outcome State Fault Refusal :=
  live s (takeCorrupt f cause)

/-- R32: a telegram left incomplete by a gap is judged corrupt; without a partial telegram whose last character came more
than 50 ms ago there is nothing to judge (log entry 2). -/
def execTelegramGapExpiry (f : Face) (s : State) : Host.Outcome State Fault Refusal :=
  live s fun s => if telegramGapDue s f then takeCorrupt f .judged s else s

/-- R33, R200: the answer at the head of the queue has been sent whole, and the next one begins at the end of its last
stop bit. While an answer that a restart cut is still going out, none is being sent (R30). -/
def FaceState.answerSent (x : FaceState) : FaceState :=
  match x.tltx.cut, x.link.answers with
  | none, a :: rest =>
      { x with
        link := { x.link with answers := rest }
        tltx := ⟨if rest = [] then 0 else x.tltx.elapsed - Config.trainCharTenths * a.length, none⟩ }
  | none, [] | some _, _ => x

/-- TRAIN_ANSWER_SENT (R33, R200). -/
def execTrainAnswerSent (f : Face) (s : State) : Host.Outcome State Fault Refusal :=
  live s fun s => s.modFace f FaceState.answerSent

/-! ### Timers -/

/-- A deadline that is armed and reached. -/
def dueNow (s : State) (d : Option Time) : Bool :=
  match d with
  | some t => s.reached t
  | none => false

/-- R40: the position-wait deadline expires. -/
def positionWaitExpires (f : Face) (s : State) : State :=
  if dueNow s (s.face f).berth.positionWait then
    berthChange f
      (fun x =>
        { x with state := .reposition, cause := some .noPosition, refusedError := none, positionWait := none })
      id s
  else s

/-- POSITION_WAIT_EXPIRY (R40): the position-wait deadline expires and a STANDING berth goes to REPOSITION with cause
NO_POSITION. -/
def execPositionWaitExpiry (f : Face) (s : State) : Host.Outcome State Fault Refusal :=
  live s (positionWaitExpires f)

/-- R51: the silence deadline expires. -/
def silenceExpires (f : Face) (s : State) : State :=
  if dueNow s (s.face f).berth.silence then
    (s.modBerth f fun x => { x with silent := true, silence := none }).latch f .trainLinkSilent
  else s

/-- SILENCE_DEADLINE_EXPIRY (R51): the train link silence deadline expires and the silent flag is set. -/
def execSilenceDeadlineExpiry (f : Face) (s : State) : Host.Outcome State Fault Refusal :=
  live s (silenceExpires f)

end Sys2Proof.Machine
end

