-- ==== Sys2Proof/Machine/ConfigStore.lean ====
section
/-! DEFINITION. The configuration store's commands (chapter 1): LOOKUP and AMEND FACE; LOOKUP, ENROL, AMEND and RETIRE
BAY. -/

namespace Sys2Proof.Machine

/-! ### LOOKUP FACE (R1) -/

/-- R1, R197: the data of the face configuration record, field by field in the order of its table. -/
def FaceConfig.encode (c : FaceConfig) : List Byte :=
  yesNo c.lf.isSome ++ optional num c.lf ++ (c.marksUp.toList.map (optional num)).flatten ++
    (c.marksDown.toList.map (optional num)).flatten ++
    ([c.minPassage, c.tFine, c.tCoarse, c.agreement, c.nMin, c.readingAge, c.positionWait, c.unlockLimit, c.openLimit,
      c.warning, c.closeLimit, c.reopenLimit, c.clearHold, c.entrapment, c.silence, c.modeTransition].map num).flatten ++
    [chr c.rate.code] ++ num c.turnaround ++ num c.interleave ++
    [chr c.arbiter.code, chr c.lowest.code, chr c.lostAction.code]

/-- LOOKUP_FACE (R1): returns the face configuration record, with each optional field marked present or absent. -/
def execLookupFace (key : Key) (data : List Byte) (s : State) : Host.Outcome State Fault Refusal :=
  live s (serve ⟨1#8, 1#8, key, 0#8, data⟩
    (onFace key fun f => noData data fun s => answer .done (s.face f).config.encode s))

/-! ### AMEND FACE (R2 to R8) -/

/-- The clamped settings of the face configuration record (R5 to R8). -/
inductive Setting where
  | minPassage | tFine | tCoarse | agreement | nMin | readingAge | positionWait | unlockLimit | openLimit | warning
  | closeLimit | reopenLimit | clearHold | entrapment | silence | modeTransition | turnaround | interleave
  deriving DecidableEq, Repr

/-- The range of a setting (01, Face configuration record); the ranges of T_fine and T_coarse depend on each other
(R5). -/
def Setting.range (c : FaceConfig) : Setting → Nat × Nat
  | .minPassage => (500, 1500)
  | .tFine => (50, min 1000 c.tCoarse)
  | .tCoarse => (c.tFine, 3000)
  | .agreement => (20, 500)
  | .nMin => (1, 4)
  | .readingAge => (200, 5000)
  | .positionWait => (500, 10000)
  | .unlockLimit => (300, 5000)
  | .openLimit => (1000, 10000)
  | .warning => (1000, 8000)
  | .closeLimit => (1000, 10000)
  | .reopenLimit => (1, 5)
  | .clearHold => (100, 3000)
  | .entrapment => (2000, 60000)
  | .silence => (1000, 30000)
  | .modeTransition => (5000, 120000)
  | .turnaround => (0, 63)
  | .interleave => (0, 8)

/-- The record with a setting stored. -/
def Setting.store (v : Nat) (c : FaceConfig) : Setting → FaceConfig
  | .minPassage => { c with minPassage := v }
  | .tFine => { c with tFine := v }
  | .tCoarse => { c with tCoarse := v }
  | .agreement => { c with agreement := v }
  | .nMin => { c with nMin := v }
  | .readingAge => { c with readingAge := v }
  | .positionWait => { c with positionWait := v }
  | .unlockLimit => { c with unlockLimit := v }
  | .openLimit => { c with openLimit := v }
  | .warning => { c with warning := v }
  | .closeLimit => { c with closeLimit := v }
  | .reopenLimit => { c with reopenLimit := v }
  | .clearHold => { c with clearHold := v }
  | .entrapment => { c with entrapment := v }
  | .silence => { c with silence := v }
  | .modeTransition => { c with modeTransition := v }
  | .turnaround => { c with turnaround := v }
  | .interleave => { c with interleave := v }

/-- A value clamped to a range: below it the lower end, above it the upper end (R2). -/
def clampTo (r : Nat × Nat) (v : Nat) : Nat := if v < r.1 then r.1 else if r.2 < v then r.2 else v

/-- R2: a clamped setting is stored; the answer carries the value stored. A change of K is compared with AU's count at
once (R8, R72). -/
def amendSetting (f : Face) (k : Setting) (v : Nat) (s : State) : State × Reply :=
  let w := clampTo (k.range (s.face f).config) v
  let s1 := s.modConfig f fun c => k.store w c
  (if k = .interleave then auRefresh f s1 else s1, ⟨if w = v then .done else .clamped, num w⟩)

/-- R6: some enrolled bay of the face has a reopen count above 0. -/
def reopensCounted (s : State) (f : Face) : Bool := (s.face f).bays.any fun x => decide (0 < x.reopens)

/-- R6: the reopen limit is amended only while every reopen count is 0. -/
def amendReopenLimit (f : Face) (v : Nat) (s : State) : State × Reply :=
  if reopensCounted s f then (s, reply .inUse) else amendSetting f .reopenLimit v s

/-- The stop marks present on a face. -/
def FaceConfig.marks (c : FaceConfig) : List Nat := (c.marksUp.toList ++ c.marksDown.toList).filterMap id

/-- R3: Lf is set or made absent. -/
def amendLength (f : Face) (v : Option Nat) (s : State) : State × Reply :=
  let x := s.face f
  if x.fi.mode ≠ .maintenance then (s, reply .wrongMode)
  else
    match v with
    | none =>
        if x.bays = [] ∧ x.config.marks = [] then (s.modConfig f fun c => { c with lf := none }, reply .done)
        else (s, reply .conflict)
    | some lf =>
        if (x.bays.all fun b => decide (2 * b.centre + b.width ≤ 2 * lf)) = false ∨
            (x.config.marks.all fun m => decide (m ≤ lf)) = false then (s, reply .conflict)
        else if lf < 20000 ∨ 250000 < lf then (s, reply .outOfRange)
        else (s.modConfig f fun c => { c with lf := some lf }, reply .done)

/-- The record with one stop mark entry, for `cars` 1 to 10, replaced. -/
def FaceConfig.setMark (c : FaceConfig) (dir : Direction) (cars : Nat) (v : Option Nat) : FaceConfig :=
  match dir with
  | .up => { c with marksUp := c.marksUp.setIfInBounds (cars - 1) v }
  | .down => { c with marksDown := c.marksDown.setIfInBounds (cars - 1) v }

/-- R4: a stop mark is set or removed. -/
def amendMark (f : Face) (dir : Direction) (cars : Nat) (v : Option Nat) (s : State) : State × Reply :=
  let x := s.face f
  if x.fi.mode ≠ .maintenance then (s, reply .wrongMode)
  else
    match v, x.config.lf with
    | none, _ => (s.modConfig f fun c => c.setMark dir cars none, reply .done)
    | some _, none => (s, reply .conflict)
    | some p, some lf =>
        if lf < p then (s, reply .outOfRange) else (s.modConfig f fun c => c.setMark dir cars (some p), reply .done)

/-- R8: the rate code may be amended: the line is disabled, not stopping, and sends no break or preamble. -/
def rateAmendable (l : Line) : Bool := !l.enabled && !l.stopping && l.signal == .none

/-- R8, R2 check 5: a refused line setting, `v` being the value its code names. -/
def amendRefused {α : Type} (f : Face) (v : Option α) (g : α → FaceConfig → FaceConfig) (s : State) :
    State × Reply :=
  match v with
  | some x => (s.modConfig f (g x), reply .done)
  | none => (s, reply .outOfRange)

/-- R8: the rate code. -/
def amendRate (f : Face) (v : Nat) (s : State) : State × Reply :=
  if rateAmendable (s.face f).line then amendRefused f (rateOf v) (fun r c => { c with rate := r }) s
  else (s, reply .inUse)

/-- The clamped setting of a selector (11, FACE selectors). -/
def settingOf : Nat → Option Setting
  | 2 => some .minPassage
  | 3 => some .tFine
  | 4 => some .tCoarse
  | 5 => some .agreement
  | 6 => some .nMin
  | 7 => some .readingAge
  | 8 => some .positionWait
  | 9 => some .unlockLimit
  | 10 => some .openLimit
  | 11 => some .warning
  | 12 => some .closeLimit
  | 14 => some .clearHold
  | 15 => some .entrapment
  | 16 => some .silence
  | 17 => some .modeTransition
  | 19 => some .turnaround
  | 20 => some .interleave
  | _ => none

/-- R2: AMEND FACE of the field that a selector names. -/
def amendField (f : Face) (sel : Nat) (data : List Byte) (s : State) : State × Reply :=
  match settingOf sel with
  | some k => decoded (readNum data) (amendSetting f k) s
  | none =>
      if sel = 1 then decoded (readOptionalNum data) (amendLength f) s
      else if sel = 13 then decoded (readNum data) (amendReopenLimit f) s
      else if sel = 18 then decoded (readEnum data) (amendRate f) s
      else if sel = 21 then
        decoded (readEnum data) (fun v => amendRefused f (arbiterOf v) fun d c => { c with arbiter := d }) s
      else if sel = 22 then
        decoded (readEnum data) (fun v => amendRefused f (pollClassOf v) fun d c => { c with lowest := d }) s
      else if sel = 23 then
        decoded (readEnum data) (fun v => amendRefused f (lostActionOf v) fun d c => { c with lostAction := d }) s
      else if 64 ≤ sel ∧ sel ≤ 73 then decoded (readOptionalNum data) (amendMark f .up (sel - 63)) s
      else if 80 ≤ sel ∧ sel ≤ 89 then decoded (readOptionalNum data) (amendMark f .down (sel - 79)) s
      else (s, reply .badRequest)

/-- AMEND_FACE (R2): changes one field of the face configuration record through the ordered checks, refusing or
clamping the value. -/
def execAmendFace (key : Key) (sel : Byte) (data : List Byte) (s : State) : Host.Outcome State Fault Refusal :=
  live s (serve ⟨2#8, 1#8, key, sel, data⟩ (onFace key fun f => amendField f sel.toNat data))

/-! ### Bays (R9 to R12) -/

/-- R9, R100: a deadline with its kind, its time (absent where armed suspended) and whether it is suspended. -/
def BayDeadline.encode (d : BayDeadline) : List Byte := [chr d.kind.code] ++ optional timeNum d.due ++ yesNo d.suspended

/-- A stored report. That LOOKUP BAY shows the mark of one dated before the loss (R13), and as its fourth character, is the
model's choice (log entry 35). -/
def StoredReport.encode (r : StoredReport) : List Byte :=
  [chr r.report.position.code, if r.report.locked then 0#8 else 1#8] ++ yesNo r.report.motorFault ++ yesNo r.beforeLoss

/-- R9, R14, R100: the data of a bay: static fields, dynamic fields, secure, last command and restore pending. That secure
stands after the last report and before the last command is the model's choice (log entry 35). -/
def bayData (x : Bay) : List Byte :=
  num x.num ++ num x.centre ++ num x.width ++ [chr x.state.code] ++ yesNo x.isolated ++ yesNo x.lockConfirmed ++
    num x.reopens ++ optional BayDeadline.encode x.deadline ++ optional num x.liveWarning ++
    optional StoredReport.encode x.lastReport ++ yesNo x.secure ++
    optional (fun c : DoorCommand => [chr c.code]) x.lastCommand ++ yesNo x.restorePending

/-- LOOKUP_BAY (R9): returns the static and dynamic fields of an enrolled bay, including whether it is secure. -/
def execLookupBay (key : Key) (data : List Byte) (s : State) : Host.Outcome State Fault Refusal :=
  live s (serve ⟨1#8, 2#8, key, 0#8, data⟩
    (onFace key fun f => noData data fun s =>
      match s.bay? f key.k2.toNat with
      | some x => answer .done (bayData x) s
      | none => answer .noRecord [] s))

/-- Two openings overlap in doubled millimetres (01, Bay records): the larger lower bound is below the smaller upper
bound. -/
def openingsOverlap (c w : Nat) (x : Bay) : Bool :=
  decide (max (2 * (c : Int) - w) (2 * (x.centre : Int) - x.width) < min (2 * (c : Int) + w) (2 * (x.centre : Int) + x.width))

/-- R10, checks 7 and 8, against the other bays of the face. -/
def placeConflicts (n c w : Nat) (others : List Bay) : Bool :=
  others.any fun x =>
    openingsOverlap c w x || (decide (x.num < n) && decide (c ≤ x.centre)) || (decide (n < x.num) && decide (x.centre ≤ c))

/-- R10, check 5. -/
def placeInRange (lf n c w : Nat) : Bool :=
  decide (1 ≤ n ∧ n ≤ Config.bayMax ∧ c ≤ lf ∧ 600 ≤ w ∧ w ≤ 3000 ∧ w ≤ 2 * c ∧ 2 * c + w ≤ 2 * lf)

/-- R10, checks 2 and 3: the face is in MAINTENANCE and its line disabled. -/
def bayWork (f : Face) (work : State → State × Reply) (s : State) : State × Reply :=
  let x := s.face f
  if x.fi.mode ≠ .maintenance then (s, reply .wrongMode)
  else if x.line.enabled then (s, reply .inUse)
  else work s

/-- R10, R100, R121, R124: the record of a newly enrolled bay. -/
def newBay (n c w : Nat) : Bay where
  num := n
  centre := c
  width := w
  state := .unknown
  isolated := false
  lockConfirmed := false
  reopens := 0
  deadline := none
  liveWarning := none
  lastReport := none
  lastCommand := none
  restorePending := false
  overflow := false
  platformHandle := false
  trackHandle := false

/-- A bay put in its place among the bays of a face, ascending by number (R9). -/
def insertBay (x : Bay) : List Bay → List Bay
  | [] => [x]
  | y :: ys => if x.num < y.num then x :: y :: ys else y :: insertBay x ys

/-- R10: ENROL BAY of a centre and a width. -/
def enrolWork (f : Face) (n : Nat) (cw : Nat × Nat) : State → State × Reply :=
  bayWork f fun s =>
    match (s.face f).config.lf with
    | none => (s, reply .conflict)
    | some lf =>
        if placeInRange lf n cw.1 cw.2 = false then (s, reply .outOfRange)
        else if (s.bay? f n).isSome ∨ placeConflicts n cw.1 cw.2 (s.face f).bays then (s, reply .conflict)
        else (fiSecure f (s.modBays f (insertBay (newBay n cw.1 cw.2))), reply .done)

/-- ENROL_BAY (R10): creates a bay record after the mode, line, range, overlap and ordering checks, with its dynamic
fields at their initial values. -/
def execEnrolBay (key : Key) (data : List Byte) (s : State) : Host.Outcome State Fault Refusal :=
  live s (serve ⟨3#8, 2#8, key, 0#8, data⟩
    (onFace key fun f => decoded (readTwoNums data) (enrolWork f key.k2.toNat)))

/-- R11: AMEND BAY of the centre (selector 1) or the width (selector 2). -/
def amendBayWork (f : Face) (n sel v : Nat) : State → State × Reply :=
  bayWork f fun s =>
    match (s.face f).config.lf with
    | none => (s, reply .conflict)
    | some lf =>
        match s.bay? f n with
        | none => (s, reply .noRecord)
        | some x =>
            let c := if sel = 1 then v else x.centre
            let w := if sel = 1 then x.width else v
            let others := (s.face f).bays.filter fun y => y.num != n
            if placeInRange lf n c w = false then (s, reply .outOfRange)
            else if placeConflicts n c w others then (s, reply .conflict)
            else (s.modBay f n fun y => { y with centre := c, width := w }, reply .done)

/-- AMEND_BAY (R11): changes the centre or the width of an enrolled bay after the enrolment checks, leaving its own
old opening out of the comparison. A selector other than 1 or 2 is judged after the face key and before every other check:
the model's choice (log entry 9). -/
def execAmendBay (key : Key) (sel : Byte) (data : List Byte) (s : State) : Host.Outcome State Fault Refusal :=
  live s (serve ⟨2#8, 2#8, key, sel, data⟩
    (onFace key fun f =>
      if sel = 1#8 ∨ sel = 2#8 then decoded (readNum data) (amendBayWork f key.k2.toNat sel.toNat)
      else answer .badRequest []))

/-- R12: what bars the retirement of a bay. -/
def bayHeld (s : State) (f : Face) (x : Bay) : Bool :=
  s.presence.any (fun r => r.face == f && r.bay == x.num) || x.overflow ||
    s.releases.any fun r => r.key == .platformHandle f x.num || r.key == .trackHandle f x.num

/-- R12: RETIRE BAY. -/
def retireBayWork (f : Face) (n : Nat) : State → State × Reply :=
  bayWork f fun s =>
    match s.bay? f n with
    | none => (s, reply .noRecord)
    | some x =>
        if bayHeld s f x then (s, reply .inUse)
        else (fiSecure f (s.modBays f fun xs => xs.filter fun y => y.num != n), reply .done)

/-- RETIRE_BAY (R12): removes an enrolled bay unless a presence record, a presence overflow mark or a bay-scope
release names it. -/
def execRetireBay (key : Key) (data : List Byte) (s : State) : Host.Outcome State Fault Refusal :=
  live s (serve ⟨4#8, 2#8, key, 0#8, data⟩ (onFace key fun f => noData data (retireBayWork f key.k2.toNat)))

end Sys2Proof.Machine
end

