-- ==== Sys2Proof/Machine/DoorCommands.lean ====
section
/-! DEFINITION. The Door Sequencer's commands (chapter 5): ISOLATE_BAY, RESTORE_BAY, OPEN_BAY, CLOSE_BAY and the four
deadlines of a bay. -/

namespace Sys2Proof.Machine

/-- R92: ISOLATE_BAY of an enrolled bay. -/
def isolateBay (f : Face) (b : Nat) (s : State) : State :=
  moveBay f b
    (fun x =>
      { x with state := .isolated, restorePending := false, deadline := none, liveWarning := none, reopens := 0 })
    (setIsolated f b true (sendCommand f b .hold s))

/-- R92: an ISOLATE_BAY of a bay that is not enrolled finds no record. -/
def isolateWork (f : Face) (b : Nat) (s : State) : State × Reply :=
  match s.bay? f b with
  | none => (s, reply .noRecord)
  | some _ => (isolateBay f b s, reply .done)

/-- ISOLATE_BAY (R92). -/
def execIsolateBay (cls : Byte) (key : Key) (data : List Byte) (s : State) : Host.Outcome State Fault Refusal :=
  live s (serve ⟨5#8, cls, key, 2#8, data⟩ (onFace key fun f => noData data (isolateWork f key.k2.toNat)))

/-- R93: a bay that RESTORE_BAY takes: FAULTED or ISOLATED, or isolated. -/
def Bay.restorable (x : Bay) : Bool := x.state == .faulted || x.state == .isolated || x.isolated

/-- R93: RESTORE_BAY. A bay UNKNOWN with isolated yes takes no pending step. -/
def restoreWork (f : Face) (b : Nat) (s : State) : State × Reply :=
  match s.bay? f b with
  | none => (s, reply .noRecord)
  | some x =>
      if x.restorable = false then (s, reply .conflict)
      else
        let s1 := if x.state = .unknown then s else s.modBay f b fun x => { x with restorePending := true }
        (setIsolated f b false s1, reply .done)

/-- RESTORE_BAY (R93). -/
def execRestoreBay (cls : Byte) (key : Key) (data : List Byte) (s : State) : Host.Outcome State Fault Refusal :=
  live s (serve ⟨5#8, cls, key, 3#8, data⟩ (onFace key fun f => noData data (restoreWork f key.k2.toNat)))

/-- R97: the checks that OPEN_BAY and CLOSE_BAY share, and the move of a bay that passes them. -/
def bayOrder (f : Face) (b : Nat) (move : State → State) (s : State) : State × Reply :=
  if (s.face f).fi.mode ≠ .maintenance then (s, reply .wrongMode)
  else
    match s.bay? f b with
    | none => (s, reply .noRecord)
    | some x =>
        match x.state with
        | .unknown | .faulted | .isolated => (s, reply .conflict)
        | .released => (s, reply .inUse)
        | .closedLocked | .unlocking | .opening | .open | .warning | .closing | .reopening | .heldOpen =>
            (move s, reply .done)

/-- OPEN_BAY (R97): the open event of R80 on the bay. -/
def execOpenBay (cls : Byte) (key : Key) (data : List Byte) (s : State) : Host.Outcome State Fault Refusal :=
  live s (serve ⟨5#8, cls, key, 4#8, data⟩
    (onFace key fun f => noData data (bayOrder f key.k2.toNat (openBayEvent f key.k2.toNat))))

/-- R97: CLOSE_BAY moves a bay that is open or opening to WARNING. -/
def closeBayOrder (f : Face) (b : Nat) (s : State) : State :=
  match s.bay? f b with
  | none => s
  | some x =>
      match x.state with
      | .open | .unlocking | .opening | .reopening | .heldOpen => startWarning f b s
      | .warning | .closing | .closedLocked | .unknown | .faulted | .isolated | .released => s

/-- CLOSE_BAY (R97). -/
def execCloseBay (cls : Byte) (key : Key) (data : List Byte) (s : State) : Host.Outcome State Fault Refusal :=
  live s (serve ⟨5#8, cls, key, 5#8, data⟩
    (onFace key fun f => noData data (bayOrder f key.k2.toNat (closeBayOrder f key.k2.toNat))))

/-- The unlock limit expires (R90). -/
def execUnlockDeadlineExpiry (f : Face) (bay : Nat) (s : State) : Host.Outcome State Fault Refusal :=
  live s (expireBay f bay .unlock)

/-- The open limit expires (R90). -/
def execOpenDeadlineExpiry (f : Face) (bay : Nat) (s : State) : Host.Outcome State Fault Refusal :=
  live s (expireBay f bay .open)

/-- The close limit expires (R90). -/
def execCloseDeadlineExpiry (f : Face) (bay : Nat) (s : State) : Host.Outcome State Fault Refusal :=
  live s (expireBay f bay .close)

/-- The warning period expires (R84). -/
def execWarningDeadlineExpiry (f : Face) (bay : Nat) (s : State) : Host.Outcome State Fault Refusal :=
  live s (expireBay f bay .warning)

end Sys2Proof.Machine
end

