-- ==== Sys2Proof/Machine/LineCommands.lean ====
section
/-! DEFINITION. The Bay Line Controller's commands (chapter 9): poll lists, LOOKUP NODE, FREEZE and UNFREEZE,
LINE_ENABLE and LINE_DISABLE, STAGE_LIST, the pass-through slot, and the events of the line itself. -/

namespace Sys2Proof.Machine

/-! ### Poll lists (R171, R172) -/

/-- A poll-list entry as data (R197). -/
def PollEntry.encode (e : PollEntry) : List Byte := [chr e.address, chr e.function.code]

/-- A poll list as data: its entries with their count, then its discipline (R197). -/
def PollList.encode (p : PollList) : List Byte := listOf PollEntry.encode p.entries ++ [chr p.discipline.code]

/-- R171: both lists with their disciplines, the list position and the starved flag. -/
def pollListData (l : Line) : List Byte :=
  optional PollList.encode l.running ++ optional PollList.encode l.staged ++ num l.position ++ yesNo l.starved

/-- LOOKUP POLL_LIST (R171). -/
def execLookupPollList (key : Key) (data : List Byte) (s : State) : Host.Outcome State Fault Refusal :=
  live s (serve ⟨1#8, 7#8, key, 0#8, data⟩
    (onFace key fun f => noData data fun s => answer .done (pollListData (s.face f).line) s))

/-- R171, checks 2 to 5: a new running list. The markers it names may differ from before (R73). -/
def amendRunning (f : Face) (v : List (Nat × Nat) × Nat) (s : State) : State × Reply :=
  if (s.face f).line.enabled then (s, reply .inUse)
  else
    match validPollList v.1 v.2 with
    | none => (s, reply .outOfRange)
    | some p =>
        if s.covers f p then
          (auRefresh f (s.modLine f fun l => { l with running := some p, position := 1 }), reply .done)
        else (s, reply .conflict)

/-- AMEND POLL_LIST RUNNING (R171). -/
def execAmendPollListRunning (key : Key) (data : List Byte) (s : State) : Host.Outcome State Fault Refusal :=
  live s (serve ⟨2#8, 7#8, key, 1#8, data⟩ (onFace key fun f => decoded (readPollList data) (amendRunning f)))

/-- R171: the running list takes a new discipline, in any state of the line. -/
def amendDiscipline (f : Face) (d : ListDiscipline) (s : State) : State × Reply :=
  match (s.face f).line.running with
  | none => (s, reply .noRecord)
  | some p => (s.modLine f fun l => { l with running := some { p with discipline := d } }, reply .done)

/-- AMEND POLL_LIST DISCIPLINE (R171). -/
def execAmendPollListDiscipline (key : Key) (data : List Byte) (s : State) : Host.Outcome State Fault Refusal :=
  live s (serve ⟨2#8, 7#8, key, 3#8, data⟩
    (onFace key fun f => decoded ((readEnum data).bind disciplineOf) (amendDiscipline f)))

/-- R171: the running list is retired; with it go the markers it named (R73). -/
def retireRunning (f : Face) (s : State) : State × Reply :=
  if (s.face f).line.enabled then (s, reply .inUse)
  else
    match (s.face f).line.running with
    | none => (s, reply .noRecord)
    | some _ => (auRefresh f (s.modLine f fun l => { l with running := none }), reply .done)

/-- RETIRE POLL_LIST RUNNING (R171). -/
def execRetirePollListRunning (key : Key) (data : List Byte) (s : State) : Host.Outcome State Fault Refusal :=
  live s (serve ⟨4#8, 7#8, key, 1#8, data⟩ (onFace key fun f => noData data (retireRunning f)))

/-- R172: the staged slot is emptied. -/
def retireStaged (f : Face) (s : State) : State × Reply :=
  match (s.face f).line.staged with
  | none => (s, reply .noRecord)
  | some _ => (s.modLine f fun l => { l with staged := none }, reply .done)

/-- RETIRE POLL_LIST STAGED (R172). -/
def execRetirePollListStaged (key : Key) (data : List Byte) (s : State) : Host.Outcome State Fault Refusal :=
  live s (serve ⟨4#8, 7#8, key, 2#8, data⟩ (onFace key fun f => noData data (retireStaged f)))

/-- R172: STAGE_LIST of a whole list; the answer says whether a list in the slot was discarded. A
refused list leaves the starved flag as it is: the model's choice (log entry 29). -/
def stageWork (f : Face) (v : List (Nat × Nat) × Nat) (s : State) : State × Reply :=
  match validPollList v.1 v.2 with
  | none => (s, reply .outOfRange)
  | some p =>
      if s.covers f p then
        (s.modLine f fun l => { l with staged := some p, starved := false },
          ⟨.done, yesNo (s.face f).line.staged.isSome⟩)
      else (s, reply .conflict)

/-- STAGE_LIST (R172). -/
def execStageList (cls : Byte) (key : Key) (data : List Byte) (s : State) : Host.Outcome State Fault Refusal :=
  live s (serve ⟨5#8, cls, key, 13#8, data⟩ (onFace key fun f => decoded (readPollList data) (stageWork f)))

/-! ### LOOKUP NODE (R57, R170) -/

/-- The node record as data. -/
def Node.encode (n : Node) : List Byte :=
  num n.errors ++ [chr n.link.code] ++ num n.run ++
    optional (fun o : LastOutcome => [chr o.outcome.code] ++ timeNum o.time) n.last ++ optional id n.identity

/-- R57: a reading with its age at the present. -/
def readingData (s : State) (r : Reading) : List Byte := yesNo r.seen ++ num r.position ++ num (s.age r.takenAt)

/-- R57: the fusion result: the confirmed head position, n, m and the time of the fusion. -/
def Fusion.encode (q : Fusion) : List Byte := optional snum q.head ++ num q.n ++ num q.m ++ optional timeNum q.at?

/-- R170: the record of an address 1 to 36, with AU's reading and fusion result at a marker address. -/
def nodeData (s : State) (f : Face) (a : Nat) : List Byte :=
  ((s.face f).line.node a).encode ++
    (match markerAt? a with
     | some k =>
         optional (readingData s) ((s.face f).au.readings.get k) ++ (s.face f).au.fusion.encode
     | none => [])

/-- R170: the transaction in flight by class, address and function. -/
def Transaction.encode (t : Transaction) : List Byte := [chr t.cls.code] ++ num t.address ++ [chr t.function.code]

/-- R170: an entry of the command queue. -/
def QueuedCommand.encode (q : QueuedCommand) : List Byte := num q.bay ++ [chr q.command.code]

/-- A pass-through request as data. -/
def passRequest (r : PollEntry) : List Byte := num r.address ++ [chr r.function.code]

/-- R170: the pass slot with its request and result, EMPTY 0 to ENDED 3. -/
def PassSlot.encode : PassSlot → List Byte
  | .empty => [0#8]
  | .waiting r => 1#8 :: passRequest r
  | .inFlight r => 2#8 :: passRequest r
  | .ended r o d => 3#8 :: (passRequest r ++ [chr o.code] ++ listOf (fun c : Byte => [c]) d)

/-- R170: the line record. -/
def lineData (l : Line) : List Byte :=
  yesNo l.enabled ++ yesNo l.stopping ++ yesNo l.frozen ++ [chr l.signal.code] ++ yesNo l.breakPending ++
    num l.position ++ yesNo l.starved ++ listOf (fun c : PollClass => [chr c.code]) l.rotation ++ num l.stray ++
    optional Transaction.encode l.tx ++ [chr l.rate.code] ++ listOf QueuedCommand.encode l.queue ++ l.passSlot.encode

/-- R165, R170: LOOKUP NODE of an address. -/
def lookupNodeWork (f : Face) (a : Nat) (s : State) : State × Reply :=
  if a = 0 then (s.modLine f fun l => { l with stray := 0 }, ⟨.done, lineData (s.face f).line⟩)
  else if a ≤ Config.nodeMax then (s, ⟨.done, nodeData s f a⟩)
  else (s, reply .noRecord)

/-- LOOKUP NODE (R170). -/
def execLookupNode (key : Key) (data : List Byte) (s : State) : Host.Outcome State Fault Refusal :=
  live s (serve ⟨1#8, 8#8, key, 0#8, data⟩ (onFace key fun f => noData data (lookupNodeWork f key.k2.toNat)))

/-! ### Freeze (R177, R179) -/

/-- FREEZE (R177). -/
def execFreeze (cls : Byte) (key : Key) (data : List Byte) (s : State) : Host.Outcome State Fault Refusal :=
  live s (serve ⟨5#8, cls, key, 9#8, data⟩ (onFace key fun f => noData data fun s => (freezeLine f s, reply .done)))

/-- R179: the frozen state ends; FI is told, then DS. -/
def unfreezeLine (f : Face) (s : State) : State :=
  if (s.face f).line.frozen then dsUnfreeze f (fiLine f (s.modLine f fun l => { l with frozen := false })) else s

/-- UNFREEZE (R179). -/
def execUnfreeze (cls : Byte) (key : Key) (data : List Byte) (s : State) : Host.Outcome State Fault Refusal :=
  live s (serve ⟨5#8, cls, key, 10#8, data⟩
    (onFace key fun f => noData data fun s => (unfreezeLine f s, reply .done)))

/-! ### Enabling and disabling (R180, R181) -/

/-- R180, check 3: the running list is there and covers the face, and so does a staged list. -/
def listsCover (s : State) (f : Face) : Bool :=
  (match (s.face f).line.running with
   | some p => s.covers f p
   | none => false) &&
    (match (s.face f).line.staged with
     | some p => s.covers f p
     | none => true)

/-- R180, check 4: the line is enabled at the face's rate, FI is told, and a preamble is owed. -/
def enableLine (f : Face) (s : State) : State :=
  let rate := (s.face f).config.rate
  owePreamble f
    (fiLine f (s.modLine f fun l => { l with enabled := true, stopping := false, rate := rate, position := 1 }))

/-- R180: the checks of LINE_ENABLE. -/
def enableWork (f : Face) (s : State) : State × Reply :=
  if (s.face f).line.enabled then (s, reply .done)
  else if listsCover s f then (enableLine f s, reply .done)
  else (s, reply .conflict)

/-- LINE_ENABLE (R180). -/
def execLineEnable (cls : Byte) (key : Key) (data : List Byte) (s : State) : Host.Outcome State Fault Refusal :=
  live s (serve ⟨5#8, cls, key, 11#8, data⟩ (onFace key fun f => noData data (enableWork f)))

/-- R181: the line is disabled; a transaction in flight or with its window open runs on, outside any pass. A preamble
still owed to the enable is owed no more (log entry 15). -/
def disableLine (f : Face) (s : State) : State :=
  if (s.face f).line.enabled then
    fiLine f (s.modLine f fun l =>
      { l with
        enabled := false, stopping := l.tx.isSome || l.late.isSome, preambleDue := false
        tx := l.tx.map fun t => { t with inPass := false } })
  else s

/-- LINE_DISABLE (R181). -/
def execLineDisable (cls : Byte) (key : Key) (data : List Byte) (s : State) : Host.Outcome State Fault Refusal :=
  live s (serve ⟨5#8, cls, key, 12#8, data⟩
    (onFace key fun f => noData data fun s => (disableLine f s, reply .done)))

/-! ### Pass-through (R182, R183) -/

/-- R182: the checks of PASS_THROUGH, and the request placed in the slot. -/
def passWork (f : Face) (a fn : Nat) (s : State) : State × Reply :=
  match pollEntryOf (a, fn) with
  | none => (s, reply .outOfRange)
  | some e =>
      match (s.face f).line.passSlot with
      | .waiting _ | .inFlight _ => (s, reply .inUse)
      | .empty | .ended _ _ _ => (s.modLine f fun l => { l with passSlot := .waiting e }, reply .done)

/-- PASS_THROUGH (R182). -/
def execPassThrough (cls : Byte) (key : Key) (data : List Byte) (s : State) : Host.Outcome State Fault Refusal :=
  live s (serve ⟨5#8, cls, key, 14#8, data⟩
    (onFace key fun f => decoded (readEnum data) (passWork f key.k2.toNat)))

/-- R183: WITHDRAW by the state of the slot. -/
def withdrawWork (f : Face) (s : State) : State × Reply :=
  match (s.face f).line.passSlot with
  | .waiting _ => (s.modLine f fun l => { l with passSlot := .empty }, reply .done)
  | .inFlight _ | .ended _ _ _ => (s, reply .late)
  | .empty => (s, reply .noRecord)

/-- WITHDRAW (R183). -/
def execWithdraw (cls : Byte) (key : Key) (data : List Byte) (s : State) : Host.Outcome State Fault Refusal :=
  live s (serve ⟨5#8, cls, key, 15#8, data⟩ (onFace key fun f => noData data (withdrawWork f)))

/-! ### The events of the line -/

/-- A header ends (R162, R163). -/
def execHeaderEnd (f : Face) (s : State) : Host.Outcome State Fault Refusal := live s (headerEnds f)

/-- The (R + 1)th response character is judged (R164). -/
def execResponseComplete (f : Face) (chars : List Byte) (s : State) : Host.Outcome State Fault Refusal :=
  live s (responseCompletes f chars)

/-- A response character shows a fault: a stop bit of 0, or a marker bit of 1 (R164). -/
def execResponseCharacterFault (f : Face) (stopBit marker : Bool) (s : State) : Host.Outcome State Fault Refusal :=
  live s (characterFaults f stopBit marker)

/-- The timeout deadline of a window expires (R163, R164). -/
def execTransactionTimeout (f : Face) (s : State) : Host.Outcome State Fault Refusal := live s (timesOut f)

/-- A character outside every window (R165). -/
def execStrayCharacter (f : Face) (s : State) : Host.Outcome State Fault Refusal := live s (strays f)

/-- A pending break goes out (R177). -/
def execBreakStart (f : Face) (s : State) : Host.Outcome State Fault Refusal := live s (breakStarts f)

/-- A break ends (R178). -/
def execBreakEnd (f : Face) (s : State) : Host.Outcome State Fault Refusal := live s (breakEnds f)

/-- A preamble ends (R178). -/
def execPreambleEnd (f : Face) (s : State) : Host.Outcome State Fault Refusal := live s (preambleEnds f)

end Sys2Proof.Machine
end

