-- ==== Sys2Proof/Machine/ModeCommands.lean ====
section
/-! DEFINITION. The Face Interlock's commands (chapter 8): LOOKUP FACE MODE, SET_MODE, the mode transition deadline, the
panel key, EVAC, and the platform panel's buttons. -/

namespace Sys2Proof.Machine

/-! ### LOOKUP FACE MODE (R140) -/

/-- R140: a pending request with its target, the time it was taken and its deadline. -/
def ModeRequest.encode (r : ModeRequest) : List Byte := [chr Mode.maintenance.code] ++ timeNum r.takenAt ++ timeNum r.due

/-- R140: the value of each of the six proving conditions. -/
def Conditions.encode (c : Conditions) : List Byte :=
  yesNo c.mode ++ yesNo c.secure ++ yesNo c.noPresence ++ yesNo c.noRelease ++ yesNo c.line ++ yesNo c.nodes

/-- The stored mode counts in its own field's list: STARTING, NORMAL, MANUAL, MAINTENANCE (08, The interlock record).
EVACUATION is never stored (R148). -/
def storedModeCode : Mode → Nat
  | .starting => 0
  | .normal => 1
  | .manual => 2
  | .maintenance | .evacuation => 3

/-- R140: the interlock record with the present levels of POPEN and PCLOSE. ON and asserted count 0, OFF and deasserted
1. -/
def interlockData (x : FaceState) : List Byte :=
  [chr x.fi.mode.code] ++ optional (fun m => [chr (storedModeCode m)]) x.fi.stored ++
    optional ModeRequest.encode x.fi.request ++ yesNo x.fi.censusPass ++ yesNo x.fi.keyOn ++ yesNo x.popen.pin ++
    yesNo x.pclose.pin ++ yesNo x.fi.proving ++ x.fi.conditions.encode

/-- LOOKUP FACE MODE (R140). -/
def execLookupFaceMode (key : Key) (data : List Byte) (s : State) : Host.Outcome State Fault Refusal :=
  live s (serve ⟨1#8, 1#8, key, 32#8, data⟩
    (onFace key fun f => noData data fun s => answer .done (interlockData (s.face f)) s))

/-! ### Mode changes (R143 to R147, R152) -/

/-- R152: the face takes a mode, and DS is handed it; leaving MAINTENANCE acts on the bays by R83. -/
def fiChangeMode (f : Face) (m : Mode) (s : State) : State :=
  let s1 := fiEnterMode f m s
  if (s.face f).fi.mode = .maintenance ∧ m ≠ .maintenance then leaveMaintenance f s1 else s1

/-- R143: the targets of SET_MODE. -/
def modeTarget (v : Nat) : Option Mode :=
  match modeOf v with
  | some .normal => some .normal
  | some .manual => some .manual
  | some .maintenance => some .maintenance
  | some .starting | some .evacuation | none => none

/-- R143, R144: a request takes effect, the pending one being gone. -/
def takeRequest (f : Face) (m : Mode) (s : State) : State :=
  if (s.face f).fi.mode = m then s
  else
    match m with
    | .maintenance => if maintenanceReady f s then fiChangeMode f .maintenance s else fiPend f s
    | .normal | .manual | .starting | .evacuation => fiChangeMode f m s

/-- R143: the outcome of a SET_MODE, TAKEN 0 or PENDING 1. -/
def modeOutcome (f : Face) (m : Mode) (s : State) : List Byte := [if (s.face f).fi.mode = m then 0#8 else 1#8]

/-- R143, R146: the checks of SET_MODE after its face key, and the request it is. -/
def setModeWork (f : Face) (v : Nat) (s : State) : State × Reply :=
  match modeTarget v with
  | none => (s, reply .outOfRange)
  | some m =>
      let fi := (s.face f).fi
      if fi.mode = .evacuation then (s, reply .wrongMode)
      else if fi.mode = .starting ∧ m ≠ .maintenance then (s, reply .wrongMode)
      else
        let s1 := takeRequest f m (fiAbandon f s)
        (s1, ⟨if fi.request.isSome then .abandoned else .done, modeOutcome f m s1⟩)

/-- SET_MODE (R143). -/
def execSetMode (cls : Byte) (key : Key) (data : List Byte) (s : State) : Host.Outcome State Fault Refusal :=
  live s (serve ⟨5#8, cls, key, 1#8, data⟩ (onFace key fun f => decoded (readEnum data) (setModeWork f)))

/-- R145: the mode transition deadline is due. -/
def modeTransitionDue (s : State) (f : Face) : Bool :=
  match (s.face f).fi.request with
  | some r => s.reached r.due
  | none => false

/-- The mode transition deadline expires (R145). -/
def execModeTransitionExpiry (f : Face) (s : State) : Host.Outcome State Fault Refusal :=
  live s fun s => if modeTransitionDue s f then fiAbandon f s else s

/-! ### The panel key (R147, R149) -/

/-- R147, R149: the key's new level acts by the face's mode. -/
def keyActs (f : Face) (on : Bool) (s : State) : State :=
  match (s.face f).fi.mode with
  | .normal => if on then fiChangeMode f .manual (fiAbandon f s) else s
  | .manual => if on then s else fiChangeMode f .normal (fiAbandon f s)
  | .evacuation =>
      match (s.face f).fi.stored with
      | some .normal | some .manual => s.modFi f fun x => { x with stored := some (keyMode on) }
      | some .starting | some .maintenance | some .evacuation | none => s
  | .starting | .maintenance => s

/-- R147: a change of the panel key. A level the key already has is no change (log entry 20). -/
def pkeyChanges (f : Face) (on : Bool) (s : State) : State :=
  let s1 := s.modFace f fun x => { x with pkey := .start on, fi := { x.fi with keyOn := on } }
  if (s.face f).fi.keyOn = on then s else keyActs f on s1

/-- A change of PKEY is taken (R147). -/
def execPkeyChange (f : Face) (on : Bool) (s : State) : Host.Outcome State Fault Refusal := live s (pkeyChanges f on)

/-! ### EVAC (R130, R148, R149) -/

/-- R148: EVAC asserted reaches the FI of a face. -/
def fiEvacAsserted (f : Face) (s : State) : State :=
  let mode := (s.face f).fi.mode
  if mode = .evacuation then s
  else fiChangeMode f .evacuation ((fiAbandon f s).modFi f fun x => { x with stored := some mode })

/-- R149: EVAC deasserted reaches the FI of a face. -/
def fiEvacDeasserted (f : Face) (s : State) : State :=
  match (s.face f).fi.mode, (s.face f).fi.stored with
  | .evacuation, some m => fiChangeMode f m (s.modFi f fun x => { x with stored := none })
  | _, _ => s

/-- R130, R148: a change of EVAC to asserted: the FI of every face, then RM (log entry 4). -/
def evacRises (s : State) : State :=
  rmEvent (activate .stationEvac) (forEach allFaces fiEvacAsserted { s with evac := .start true })

/-- R130, R149: a change of EVAC to deasserted. -/
def evacFalls (s : State) : State :=
  rmEvent (quiesce .stationEvac) (forEach allFaces fiEvacDeasserted { s with evac := .start false })

/-- EVAC is taken as asserted (R130, R148); at a standing level it is no change (log entry 20). -/
def execEvacAsserted (s : State) : Host.Outcome State Fault Refusal :=
  live s fun s => if s.evac.taken then s else evacRises s

/-- EVAC is taken as deasserted (R130, R149); at a standing level it is no change (log entry 20). -/
def execEvacDeasserted (s : State) : Host.Outcome State Fault Refusal :=
  live s fun s => if s.evac.taken then evacFalls s else s

/-! ### The platform panel (R150, R151) -/

/-- R150: a press of POPEN. -/
def popenPressed (f : Face) (s : State) : State :=
  let s1 := s.modFace f fun x => { x with popen := .start true }
  if (s.face f).fi.mode = .manual then
    let r := panelOpen f s1
    if r.2 then r.1 else r.1.latch f .panelRefused
  else s1.latch f .panelRefused

/-- The panel OPEN button is pressed (R150). -/
def execPopenPress (f : Face) (s : State) : Host.Outcome State Fault Refusal := live s (popenPressed f)

/-- R151: a press of PCLOSE: DS takes a panel CLOSE, then BC does. -/
def pclosePressed (f : Face) (s : State) : State :=
  let s1 := s.modFace f fun x => { x with pclose := .start true }
  if (s.face f).fi.mode = .manual then panelCloseBerth f (panelClose f s1) else s1.latch f .panelRefused

/-- The panel CLOSE button is pressed (R151). -/
def execPclosePress (f : Face) (s : State) : Host.Outcome State Fault Refusal := live s (pclosePressed f)

end Sys2Proof.Machine
end

