-- ==== Sys2Proof/Machine/PresenceCommands.lean ====
section
/-! DEFINITION. The Gap Monitor's commands (chapter 6): LOOKUP PRESENCE in its two forms, and the clear-hold. -/

namespace Sys2Proof.Machine

/-- The position of the first item that a test selects, counting from 1; 0 where none is. -/
def positionIn {α : Type} (test : α → Bool) (xs : List α) : Nat :=
  match xs.findIdx? test with
  | some i => i + 1
  | none => 0

/-- R117: a clear-hold deadline with whether it is suspended. -/
def ClearHold.encode (h : ClearHold) : List Byte := timeNum h.due ++ yesNo h.suspended

/-- R117: one presence record, with its age and its position in the list. -/
def presenceData (s : State) (r : Presence) : List Byte :=
  [chr r.state.code] ++ timeNum r.onset ++ num (s.age r.onset) ++
    optional (fun u : BitVec 4 => [chr u.toNat]) r.beams ++ timeNum r.lastSeen ++ optional timeNum r.clearSince ++
    optional ClearHold.encode r.clearHold ++ yesNo r.reported ++
    num (positionIn (fun x => x.isAt r.face r.bay r.zone) s.presence)

/-- R117: the record at a key. -/
def lookupPresenceWork (f : Face) (b : Nat) (z : Byte) (s : State) : State × Reply :=
  match zoneOf z with
  | none => (s, reply .noRecord)
  | some zone =>
      match s.presenceAt f b zone with
      | some r => (s, ⟨.done, presenceData s r⟩)
      | none => (s, reply .noRecord)

/-- LOOKUP_PRESENCE (R117): returns one presence record, keyed by face, bay and zone. -/
def execLookupPresence (key : Key) (data : List Byte) (s : State) : Host.Outcome State Fault Refusal :=
  live s (serve ⟨1#8, 5#8, key, 0#8, data⟩
    (onFace key fun f => noData data (lookupPresenceWork f key.k2.toNat key.k3)))

/-- R117: a record of the whole list. -/
def presenceEntry (s : State) (r : Presence) : List Byte :=
  [chr (faceCode r.face)] ++ num r.bay ++ [chr (zoneCode r.zone), chr r.state.code] ++ num (s.age r.onset) ++
    yesNo r.reported

/-- R117: the bays of a face whose overflow mark is set. -/
def markedBays (s : State) (f : Face) : List Nat := ((s.face f).bays.filter Bay.overflow).map Bay.num

/-- R117: the whole list with each face's overflow marks. The number of records is the list's count character and no item
of its own: the model's choice (log entry 12). -/
def presenceListData (s : State) : List Byte :=
  listOf (presenceEntry s) s.presence ++ (allFaces.map fun f => baySet (markedBays s f)).flatten

/-- LOOKUP_PRESENCE_LIST (R117): returns the whole presence list in order, with each face's set overflow marks. -/
def execLookupPresenceList (key : Key) (data : List Byte) (s : State) : Host.Outcome State Fault Refusal :=
  live s (serve ⟨1#8, 5#8, key, 1#8, data⟩ (noData data fun s => answer .done (presenceListData s) s))

/-- CLEAR_HOLD_EXPIRY (R106): A CLEARING presence record's clear-hold deadline expires and the record is retired. -/
def execClearHoldExpiry (f : Face) (bay : Nat) (zone : Zone) (s : State) : Host.Outcome State Fault Refusal :=
  live s (clearHoldExpires f bay zone)

end Sys2Proof.Machine
end

