-- ==== Sys2Proof/Machine/ProfileTable.lean ====
section
/-! DEFINITION. The Profile Table's commands (chapter 2): LOOKUP, ENROL, AMEND and RETIRE PROFILE. -/

namespace Sys2Proof.Machine

/-! ### Door lists (R17) -/

/-- R17: an entry's fields lie in their ranges. -/
def doorInRange (cars : Nat) (d : Door) : Bool :=
  decide (1 ≤ d.car ∧ d.car ≤ cars ∧ d.offset ≤ 250000 ∧ 600 ≤ d.width ∧ d.width ≤ 2000)

/-- R17: the index of the first entry that fails, given the offset of the entry before it and the index it has. -/
def firstFailing (cars : Nat) : Option Nat → Nat → List Door → Option Nat
  | _, _, [] => none
  | before, i, d :: ds =>
      let follows := match before with
        | none => true
        | some e => decide (e < d.offset)
      if doorInRange cars d && follows then firstFailing cars (some d.offset) (i + 1) ds else some i

/-- R17: the index that the answer carries for an invalid list: 0 for its length, else the first entry that fails; none
for a valid list. -/
def doorListFault (cars : Nat) (ds : List Door) : Option Nat :=
  if 1 ≤ ds.length ∧ ds.length ≤ Config.doorListMax then firstFailing cars none 1 ds else some 0

/-! ### ENROL PROFILE (R19) -/

/-- A profile put in its place in ascending order of code (R16). -/
def insertProfile (p : Profile) : List Profile → List Profile
  | [] => [p]
  | q :: qs => if p.code < q.code then p :: q :: qs else q :: insertProfile p qs

/-- R19: ENROL PROFILE. -/
def enrolProfileWork (code : Nat) (v : Nat × Nat × List Door) (s : State) : State × Reply :=
  let cars := v.1
  let q := v.2.1
  let doors := v.2.2
  if ¬(1 ≤ code ∧ code ≤ 255 ∧ 1 ≤ cars ∧ cars ≤ 10 ∧ q ≤ 250000) then (s, ⟨.outOfRange, num 0⟩)
  else
    match doorListFault cars doors with
    | some i => (s, ⟨.outOfRange, num i⟩)
    | none =>
        if (s.profile? code).isSome then (s, reply .conflict)
        else if Config.profileCapacity ≤ s.profiles.length then (s, reply .noSpace)
        else if s.freePool < doors.length then (s, reply .noSpace)
        else
          let free := s.freePool - doors.length
          ({ s with
              profiles := insertProfile { code := code, cars := cars, q := q, doors := doors, refs := 0 } s.profiles
              freePool := free },
            ⟨.done, num free⟩)

/-- ENROL_PROFILE (R19): creates a profile and takes its door-list length from the pool, after the range, list, code,
table and pool checks. -/
def execEnrolProfile (key : Key) (data : List Byte) (s : State) : Host.Outcome State Fault Refusal :=
  live s (serve ⟨3#8, 3#8, key, 0#8, data⟩ (decoded (readProfile data) (enrolProfileWork key.k1.toNat)))

/-! ### AMEND PROFILE (R20, R21) -/

/-- The state with one profile changed. -/
def modProfile (code : Nat) (g : Profile → Profile) (s : State) : State :=
  { s with profiles := s.profiles.map fun p => if p.code == code then g p else p }

/-- R20: a new car count. -/
def amendCars (p : Profile) (v : Nat) (s : State) : State × Reply :=
  if ¬(1 ≤ v ∧ v ≤ 10) then (s, reply .outOfRange)
  else if (p.doors.all fun d => decide (d.car ≤ v)) = false then (s, reply .conflict)
  else (modProfile p.code (fun x => { x with cars := v }) s, reply .done)

/-- R20: a new detection offset. -/
def amendOffset (p : Profile) (v : Nat) (s : State) : State × Reply :=
  if 250000 < v then (s, reply .outOfRange)
  else (modProfile p.code (fun x => { x with q := v }) s, reply .done)

/-- R20, R21: a new door list; the old entries are returned and the new list's length taken in one step. -/
def amendDoors (p : Profile) (ds : List Door) (s : State) : State × Reply :=
  match doorListFault p.cars ds with
  | some i => (s, ⟨.outOfRange, num i⟩)
  | none =>
      if s.freePool + p.doors.length < ds.length then (s, reply .noSpace)
      else
        let free := s.freePool + p.doors.length - ds.length
        (modProfile p.code (fun x => { x with doors := ds }) { s with freePool := free }, ⟨.done, num free⟩)

/-- R20: AMEND PROFILE of the field that a selector names: CAR_COUNT 4, OFFSET 5, DOOR_LIST 6. -/
def amendProfileWork (code sel : Nat) (data : List Byte) (s : State) : State × Reply :=
  match s.profile? code with
  | none => (s, reply .noRecord)
  | some p =>
      if ¬(4 ≤ sel ∧ sel ≤ 6) then (s, reply .badRequest)
      else
        let whenFree (work : State → State × Reply) (s : State) : State × Reply :=
          if 0 < p.refs then (s, reply .inUse) else work s
        if sel = 4 then decoded (readNum data) (fun v => whenFree (amendCars p v)) s
        else if sel = 5 then decoded (readNum data) (fun v => whenFree (amendOffset p v)) s
        else decoded (readDoorList data) (fun ds => whenFree (amendDoors p ds)) s

/-- AMEND_PROFILE (R20): changes the car count, the detection offset or the door list of a profile whose reference
count is 0. -/
def execAmendProfile (key : Key) (sel : Byte) (data : List Byte) (s : State) : Host.Outcome State Fault Refusal :=
  live s (serve ⟨2#8, 3#8, key, sel, data⟩ (amendProfileWork key.k1.toNat sel.toNat data))

/-! ### RETIRE PROFILE (R22) -/

/-- R22: RETIRE PROFILE. -/
def retireProfileWork (code : Nat) (s : State) : State × Reply :=
  match s.profile? code with
  | none => (s, reply .noRecord)
  | some p =>
      if 0 < p.refs then (s, reply .inUse)
      else
        let free := s.freePool + p.doors.length
        ({ s with profiles := s.profiles.filter (fun x => x.code != code), freePool := free }, ⟨.done, num free⟩)

/-- RETIRE_PROFILE (R22): removes a profile with reference count 0 and returns its door-list entries to the pool. -/
def execRetireProfile (key : Key) (data : List Byte) (s : State) : Host.Outcome State Fault Refusal :=
  live s (serve ⟨4#8, 3#8, key, 0#8, data⟩ (noData data (retireProfileWork key.k1.toNat)))

/-! ### LOOKUP PROFILE (R23) -/

/-- A door-list entry with its index (R23, R197). -/
def doorData (d : Nat × Door) : List Byte := num d.1 ++ [chr d.2.car] ++ num d.2.offset ++ num d.2.width

/-- The doors of a list with their indices. -/
def doorEntries (ds : List Door) : List (Nat × Door) := indexed 1 ds

/-- R23: a whole profile record, the reference count before the door list as R23 names them; the field table has them the
other way round: the model's choice (log entry 33). -/
def profileData (p : Profile) : List Byte :=
  num p.code ++ num p.cars ++ num p.q ++ num p.refs ++ listOf doorData (doorEntries p.doors)

/-- LOOKUP_PROFILE (R23): returns one enrolled profile with its door list. -/
def execLookupProfile (key : Key) (data : List Byte) (s : State) : Host.Outcome State Fault Refusal :=
  live s (serve ⟨1#8, 3#8, key, 0#8, data⟩
    (noData data fun s =>
      match s.profile? key.k1.toNat with
      | some p => answer .done (profileData p) s
      | none => answer .noRecord [] s))

/-- R23: the table: the profiles in ascending order of code with list length and reference count, and the free pool
count. The number of profiles is the list's count character and no item of its own: the model's choice (log entry 12). -/
def profileTableData (s : State) : List Byte :=
  listOf (fun p : Profile => num p.code ++ num p.doors.length ++ num p.refs) s.profiles ++ num s.freePool

/-- LOOKUP_PROFILE_TABLE (R23): returns the enrolled codes with their list lengths and reference counts, and the free
pool count. -/
def execLookupProfileTable (key : Key) (data : List Byte) (s : State) : Host.Outcome State Fault Refusal :=
  live s (serve ⟨1#8, 3#8, key, 1#8, data⟩ (noData data fun s => answer .done (profileTableData s) s))

end Sys2Proof.Machine
end

