-- ==== Sys2Proof/Machine/ReleaseCommands.lean ====
section
/-! DEFINITION. The Release Manager's commands (chapter 7): LOOKUP RELEASE in its two forms, FACE_RELEASE,
RESET_RELEASE and CLEAR_OVERFLOW. -/

namespace Sys2Proof.Machine

/-! ### LOOKUP RELEASE (R137) -/

/-- ACTIVE 0 or QUIESCENT 1. -/
def releaseStateChar (r : Release) : Byte := if r.active then 0#8 else 1#8

/-- The tag, source, face and bay of a record. -/
def releaseScope (r : Release) : List Byte :=
  num r.tag ++ [chr r.key.source] ++ optional (fun f : Face => [chr (faceCode f)]) r.key.face? ++
    optional num r.key.bay?

/-- R137: one release record, with its age and its position in the list. -/
def releaseData (s : State) (r : Release) : List Byte :=
  releaseScope r ++ [releaseStateChar r] ++ timeNum r.onset ++ num (s.age r.onset) ++
    optional timeNum r.quiescentSince ++ num (positionIn (fun x => x.tag == r.tag) s.releases)

/-- LOOKUP_RELEASE (R137): returns the release record holding a tag. -/
def execLookupRelease (key : Key) (data : List Byte) (s : State) : Host.Outcome State Fault Refusal :=
  live s (serve ⟨1#8, 6#8, key, 0#8, data⟩
    (noData data fun s =>
      match s.releaseTagged key.k1.toNat with
      | some r => answer .done (releaseData s r) s
      | none => answer .noRecord [] s))

/-- R137: a record of the whole list. -/
def releaseEntry (s : State) (r : Release) : List Byte :=
  releaseScope r ++ [releaseStateChar r] ++ num (s.age r.onset)

/-- R137: the bays of a face with a handle OPERATED. -/
def handleBays (s : State) (f : Face) : List Nat :=
  ((s.face f).bays.filter fun x => x.platformHandle || x.trackHandle).map Bay.num

/-- R137: the whole list, each face's overflow mark, the next-tag value, and each face's operated handles. An overflow
mark counts set 0, clear 1; the number of records is the list's count character and no item of its own: the model's choice
(log entry 12). -/
def releaseListData (s : State) : List Byte :=
  listOf (releaseEntry s) s.releases ++ (allFaces.map fun f => yesNo (s.face f).releaseOverflow).flatten ++
    num s.nextTag ++ (allFaces.map fun f => baySet (handleBays s f)).flatten

/-- LOOKUP_RELEASE_LIST (R137): returns the release list, the overflow marks, the next-tag value and each face's
operated handle sets. -/
def execLookupReleaseList (key : Key) (data : List Byte) (s : State) : Host.Outcome State Fault Refusal :=
  live s (serve ⟨1#8, 6#8, key, 1#8, data⟩ (noData data fun s => answer .done (releaseListData s) s))

/-! ### Orders -/

/-- R131: FACE_RELEASE, on 0 or off 1. -/
def faceReleaseWork (f : Face) (v : Nat) (s : State) : State × Reply :=
  let key := ReleaseKey.supervisor f
  if v = 0 then
    let s1 := rmEvent (activate key) s
    match s1.releaseOf key with
    | some r => (s1, ⟨.done, num r.tag⟩)
    | none => (s1, reply .noSpace)
  else if v = 1 then
    match s.releaseOf key with
    | some r => (rmEvent (quiesce key) s, ⟨.done, num r.tag⟩)
    | none => (s, reply .noRecord)
  else (s, reply .badRequest)

/-- FACE_RELEASE (R131): on activates and off quiesces the face's SUPERVISOR release record. -/
def execFaceRelease (cls : Byte) (key : Key) (data : List Byte) (s : State) : Host.Outcome State Fault Refusal :=
  live s (serve ⟨5#8, cls, key, 6#8, data⟩ (onFace key fun f => decoded (readEnum data) (faceReleaseWork f)))

/-- R136: RESET_RELEASE. -/
def resetReleaseWork (tag : Nat) (s : State) : State × Reply :=
  match s.releaseTagged tag with
  | none => (s, reply .noRecord)
  | some r => if r.active then (s, reply .notQuiescent) else (rmEvent (retireRelease tag) s, reply .done)

/-- RESET_RELEASE (R136): retires a QUIESCENT release record by tag; an ACTIVE record is answered NOT_QUIESCENT. -/
def execResetRelease (cls : Byte) (key : Key) (data : List Byte) (s : State) : Host.Outcome State Fault Refusal :=
  live s (serve ⟨5#8, cls, key, 7#8, data⟩ (noData data (resetReleaseWork key.k1.toNat)))

/-- R135: CLEAR_OVERFLOW. -/
def clearOverflowWork (f : Face) (s : State) : State × Reply :=
  if (s.face f).releaseOverflow = false then (s, reply .done)
  else if s.handleOperated f then (s, reply .notQuiescent)
  else if Config.releaseCapacity ≤ s.releases.length then (s, reply .notQuiescent)
  else if s.evac.taken ∧ (s.releaseOf .stationEvac).isNone then (s, reply .notQuiescent)
  else (rmEvent (fun s => s.modFace f fun x => { x with releaseOverflow := false }) s, reply .done)

/-- CLEAR_OVERFLOW (R135): clears a face's release overflow mark when no handle of the face is operated, the list has
room and no unrecorded evacuation stands. -/
def execClearOverflow (cls : Byte) (key : Key) (data : List Byte) (s : State) : Host.Outcome State Fault Refusal :=
  live s (serve ⟨5#8, cls, key, 8#8, data⟩ (onFace key fun f => noData data (clearOverflowWork f)))

end Sys2Proof.Machine
end

