-- ==== Sys2Proof/Machine/Reset.lean ====
section
/-! DEFINITION. Resets, supply and the commands the port works itself (chapters 8, 10, 11): POWER_ON_RESET,
RESTART_PART, RESTART_FACE, SUPPLY_LOSS, LOOKUP SUMMARY, FETCH, and the frames answered or discarded by the port. -/

namespace Sys2Proof.Machine

/-! ### The port's own commands -/

/-- FETCH (R189). -/
def execFetch (clocked : Nat) (s : State) : Host.Outcome State Fault Refusal := live s (fetchExchange clocked)

/-- A malformed frame taken in IDLE (R187). -/
def execMalformedFrame (chars : List Byte) (s : State) : Host.Outcome State Fault Refusal :=
  live s (takeMalformed chars)

/-- A request frame taken while the port is WORKING or ANSWER_READY (R190). -/
def execOverrunDiscard (chars : List Byte) (s : State) : Host.Outcome State Fault Refusal := live s (takeOverrun chars)

/-- R191, R192: a well-formed request that is not admitted; what is admitted is another command and changes nothing here
(log entry 3). -/
def takeUnadmitted (q : Request) (s : State) : State :=
  if 1 ≤ q.kind.toNat ∧ q.kind.toNat ≤ 5 ∧ admitted q.kind q.cls q.sel = false then
    serve q (workUnadmitted q.kind q.cls q.key) s
  else s

/-- A request that is not admitted (R191, R192). -/
def execUnadmittedRequest (kind cls : Byte) (key : Key) (sel : Byte) (data : List Byte) (s : State) :
    Host.Outcome State Fault Refusal :=
  live s (takeUnadmitted ⟨kind, cls, key, sel, data⟩)

/-! ### LOOKUP SUMMARY (R194) -/

/-- R194: a face's mode, its berth state and whether PROVE is asserted. -/
def summaryOf (x : FaceState) : List Byte := [chr x.fi.mode.code, chr x.berth.state.code] ++ yesNo x.fi.proving

/-- R194: the five attention sets, then the mode, berth state and PROVE of each face. -/
def summaryData (s : State) : List Byte :=
  (allFaces.map fun f => attnSet (s.face f).attn).flatten ++ [if s.partAttn then 1#8 else 0#8] ++
    (allFaces.map fun f => summaryOf (s.face f)).flatten

/-- A face's attention set is emptied (R194, R195). -/
def clearAttn (f : Face) (s : State) : State := s.modFace f fun x => { x with attn := 0#24 }

/-- R194: the answer is formed, and the port empties all five sets. -/
def summaryWork (s : State) : State × Reply :=
  ({ forEach allFaces clearAttn s with partAttn := false }, ⟨.done, summaryData s⟩)

/-- LOOKUP SUMMARY (R194). -/
def execLookupSummary (key : Key) (data : List Byte) (s : State) : Host.Outcome State Fault Refusal :=
  live s (serve ⟨1#8, 9#8, key, 0#8, data⟩ (noData data summaryWork))

/-! ### Restarts (R156, R195) -/

/-- R15, R100, R120, R138: a bay record after a restart; the static fields and the isolated flag stay. -/
def Bay.restarted (x : Bay) : Bay :=
  { x with
    state := .unknown, lockConfirmed := false, reopens := 0, deadline := none, liveWarning := none
    lastReport := none, lastCommand := none, restorePending := false, overflow := false, platformHandle := false
    trackHandle := false }

/-- R30, R200: the transmitter at a restart: an answer whose transmission has begun is cut at the end of the character in
progress; one cut earlier goes on to its end. -/
def FaceState.cutAnswer (x : FaceState) : TrainTransmitter :=
  match x.tltx.cut, x.link.answers with
  | some _, _ => x.tltx
  | none, a :: _ => { x.tltx with cut := some (a.take (x.tltx.elapsed / Config.trainCharTenths + 1)) }
  | none, [] => .idle

/-- R15, R30, R56, R120, R138: the berth, the train link, AU's state, the bays and the release mark of a restarted
face. -/
def clearFace (f : Face) (s : State) : State :=
  s.modFace f fun x =>
    { x with
      au := .powerOn, berth := .powerOn, link := ⟨none, []⟩, tltx := x.cutAnswer, bays := x.bays.map Bay.restarted
      releaseOverflow := false }

/-- R156: FI of a restarted face: STARTING, no stored mode, no request, no pass seen, proving deasserted, and every
condition from the restarted state; the panel key keeps its level. -/
def restartFi (f : Face) (s : State) : State :=
  let s1 := s.modFi f fun x =>
    { x with mode := .starting, stored := none, request := none, censusPass := false, proving := false }
  s1.modFi f fun x => { x with conditions := s1.conditionsOf f }

/-- R156: FI of a restarted face, and EVAC asserted at the restart. -/
def restartInterlock (f : Face) (s : State) : State :=
  let s1 := restartFi f s
  if s.evac.taken then fiEvacAsserted f s1 else s1

/-- R138: EVAC asserted at the restart with no STATION_EVAC record in the list is an activation of its key. -/
def restartEvac (s : State) : State :=
  if s.evac.taken ∧ (s.releaseOf .stationEvac).isNone then rmEvent (activate .stationEvac) s else s

/-- RESTART_FACE of a face, block by block (R28, R30, R56, R100, R120, R138, R156, R184, R195). -/
def restartFace (f : Face) (s : State) : State :=
  let s1 := clearFace f (releaseReference f { clearAttn f s with partAttn := true })
  let s2 :=
    { s1 with
      presence := s1.presence.filter fun r => r.face != f
      releases := s1.releases.filter fun r => r.key.face? != some f }
  restartEvac (restartInterlock f (restartLine f s2))

/-- RESTART_FACE (R156, R195). -/
def execRestartFace (cls : Byte) (key : Key) (data : List Byte) (s : State) : Host.Outcome State Fault Refusal :=
  live s (serve ⟨5#8, cls, key, 16#8, data⟩
    (onFace key fun f => noData data fun s => (restartFace f s, reply .done)))

/-- RESTART_PART, block by block (R28, R30, R56, R100, R120, R138, R156, R184, R195). -/
def restartPart (s : State) : State :=
  let s1 := forEach allFaces clearFace { forEach allFaces clearAttn s with partAttn := true }
  let s2 :=
    { s1 with profiles := s1.profiles.map fun p => { p with refs := 0 }, presence := [], releases := [] }
  restartEvac (forEach allFaces restartInterlock (forEach allFaces restartLine s2))

/-- RESTART_PART (R156, R195). -/
def execRestartPart (cls : Byte) (key : Key) (data : List Byte) (s : State) : Host.Outcome State Fault Refusal :=
  live s (serve ⟨5#8, cls, key, 17#8, data⟩ (noData data fun s => (restartPart s, reply .done)))

/-! ### Power -/

/-- R201: the part while POR is held low: every block has its power-on values, nothing acts, and the output pins are as
R201 states. The environment holds POR low (log entry 5). The model's own free-value counter goes on. -/
def holdReset (s : State) : State :=
  { State.powerOn ⟨false, .all false, .all false, .all false⟩ s.pending with
    powered := false, resetHeld := true, freeCount := s.freeCount }

/-- R155, R201: POR is released with the given levels at the inputs; EVAC asserted is taken as a change to asserted. -/
def releaseReset (pins : PinLevels) (s : State) : State :=
  let s1 := { State.powerOn pins s.pending with freeCount := s.freeCount }
  if pins.evac then evacRises s1 else s1

/-- R155, R201: POR held low and released. -/
def powerOnResets (pins : PinLevels) (s : State) : State := releaseReset pins (holdReset s)

/-- POWER_ON_RESET (R155): it needs no state to act on. -/
def execPowerOnReset (pins : PinLevels) (s : State) : Host.Outcome State Fault Refusal := always s (powerOnResets pins)

/-- SUPPLY_LOSS (R201): without supply no proving loop conducts (log entry 5). -/
def execSupplyLoss (s : State) : Host.Outcome State Fault Refusal := always s fun s => { s with powered := false }

end Sys2Proof.Machine
end

