-- ==== Sys2Proof/Machine/Dispatch.lean ====
section
/-! DEFINITION. The meaning of every command: one arm per constructor of Instr, each one call of the command's own
meaning. -/

namespace Sys2Proof.Machine

/-- A command's effect on everything but the queue of waiting commands. -/
def exec (i : Instr) (s : State) : Host.Outcome State Fault Refusal :=
  match i with
  | .powerOnReset pins => Sys2Proof.Machine.execPowerOnReset pins s
  | .fetch clocked => Sys2Proof.Machine.execFetch clocked s
  | .malformedFrame chars => Sys2Proof.Machine.execMalformedFrame chars s
  | .overrunDiscard chars => Sys2Proof.Machine.execOverrunDiscard chars s
  | .unadmittedRequest kind cls key sel data => Sys2Proof.Machine.execUnadmittedRequest kind cls key sel data s
  | .lookupFace key data => Sys2Proof.Machine.execLookupFace key data s
  | .lookupFaceMode key data => Sys2Proof.Machine.execLookupFaceMode key data s
  | .amendFace key sel data => Sys2Proof.Machine.execAmendFace key sel data s
  | .lookupBay key data => Sys2Proof.Machine.execLookupBay key data s
  | .enrolBay key data => Sys2Proof.Machine.execEnrolBay key data s
  | .amendBay key sel data => Sys2Proof.Machine.execAmendBay key sel data s
  | .retireBay key data => Sys2Proof.Machine.execRetireBay key data s
  | .lookupProfile key data => Sys2Proof.Machine.execLookupProfile key data s
  | .lookupProfileTable key data => Sys2Proof.Machine.execLookupProfileTable key data s
  | .enrolProfile key data => Sys2Proof.Machine.execEnrolProfile key data s
  | .amendProfile key sel data => Sys2Proof.Machine.execAmendProfile key sel data s
  | .retireProfile key data => Sys2Proof.Machine.execRetireProfile key data s
  | .lookupBerth key data => Sys2Proof.Machine.execLookupBerth key data s
  | .retireBerth key data => Sys2Proof.Machine.execRetireBerth key data s
  | .lookupPresence key data => Sys2Proof.Machine.execLookupPresence key data s
  | .lookupPresenceList key data => Sys2Proof.Machine.execLookupPresenceList key data s
  | .lookupRelease key data => Sys2Proof.Machine.execLookupRelease key data s
  | .lookupReleaseList key data => Sys2Proof.Machine.execLookupReleaseList key data s
  | .lookupPollList key data => Sys2Proof.Machine.execLookupPollList key data s
  | .amendPollListRunning key data => Sys2Proof.Machine.execAmendPollListRunning key data s
  | .amendPollListDiscipline key data => Sys2Proof.Machine.execAmendPollListDiscipline key data s
  | .retirePollListRunning key data => Sys2Proof.Machine.execRetirePollListRunning key data s
  | .retirePollListStaged key data => Sys2Proof.Machine.execRetirePollListStaged key data s
  | .lookupNode key data => Sys2Proof.Machine.execLookupNode key data s
  | .lookupSummary key data => Sys2Proof.Machine.execLookupSummary key data s
  | .setMode cls key data => Sys2Proof.Machine.execSetMode cls key data s
  | .isolateBay cls key data => Sys2Proof.Machine.execIsolateBay cls key data s
  | .restoreBay cls key data => Sys2Proof.Machine.execRestoreBay cls key data s
  | .openBay cls key data => Sys2Proof.Machine.execOpenBay cls key data s
  | .closeBay cls key data => Sys2Proof.Machine.execCloseBay cls key data s
  | .faceRelease cls key data => Sys2Proof.Machine.execFaceRelease cls key data s
  | .resetRelease cls key data => Sys2Proof.Machine.execResetRelease cls key data s
  | .clearOverflow cls key data => Sys2Proof.Machine.execClearOverflow cls key data s
  | .freeze cls key data => Sys2Proof.Machine.execFreeze cls key data s
  | .unfreeze cls key data => Sys2Proof.Machine.execUnfreeze cls key data s
  | .lineEnable cls key data => Sys2Proof.Machine.execLineEnable cls key data s
  | .lineDisable cls key data => Sys2Proof.Machine.execLineDisable cls key data s
  | .stageList cls key data => Sys2Proof.Machine.execStageList cls key data s
  | .passThrough cls key data => Sys2Proof.Machine.execPassThrough cls key data s
  | .withdraw cls key data => Sys2Proof.Machine.execWithdraw cls key data s
  | .restartFace cls key data => Sys2Proof.Machine.execRestartFace cls key data s
  | .restartPart cls key data => Sys2Proof.Machine.execRestartPart cls key data s
  | .arrive f train profile dir cars => Sys2Proof.Machine.execArrive f train profile dir cars s
  | .standstillYes f position => Sys2Proof.Machine.execStandstillYes f position s
  | .standstillNo f position => Sys2Proof.Machine.execStandstillNo f position s
  | .openRequest f => Sys2Proof.Machine.execOpenRequest f s
  | .closeRequest f => Sys2Proof.Machine.execCloseRequest f s
  | .emergencyReleaseOn f => Sys2Proof.Machine.execEmergencyReleaseOn f s
  | .emergencyReleaseOff f => Sys2Proof.Machine.execEmergencyReleaseOff f s
  | .depart f => Sys2Proof.Machine.execDepart f s
  | .statusQuery f => Sys2Proof.Machine.execStatusQuery f s
  | .corruptTelegram f cause => Sys2Proof.Machine.execCorruptTelegram f cause s
  | .telegramGapExpiry f => Sys2Proof.Machine.execTelegramGapExpiry f s
  | .trainAnswerSent f => Sys2Proof.Machine.execTrainAnswerSent f s
  | .positionWaitExpiry f => Sys2Proof.Machine.execPositionWaitExpiry f s
  | .silenceDeadlineExpiry f => Sys2Proof.Machine.execSilenceDeadlineExpiry f s
  | .unlockDeadlineExpiry f bay => Sys2Proof.Machine.execUnlockDeadlineExpiry f bay s
  | .openDeadlineExpiry f bay => Sys2Proof.Machine.execOpenDeadlineExpiry f bay s
  | .closeDeadlineExpiry f bay => Sys2Proof.Machine.execCloseDeadlineExpiry f bay s
  | .warningDeadlineExpiry f bay => Sys2Proof.Machine.execWarningDeadlineExpiry f bay s
  | .clearHoldExpiry f bay zone => Sys2Proof.Machine.execClearHoldExpiry f bay zone s
  | .modeTransitionExpiry f => Sys2Proof.Machine.execModeTransitionExpiry f s
  | .evacAsserted => Sys2Proof.Machine.execEvacAsserted s
  | .evacDeasserted => Sys2Proof.Machine.execEvacDeasserted s
  | .pkeyChange f on => Sys2Proof.Machine.execPkeyChange f on s
  | .popenPress f => Sys2Proof.Machine.execPopenPress f s
  | .pclosePress f => Sys2Proof.Machine.execPclosePress f s
  | .headerEnd f => Sys2Proof.Machine.execHeaderEnd f s
  | .responseComplete f chars => Sys2Proof.Machine.execResponseComplete f chars s
  | .responseCharacterFault f stopBit marker => Sys2Proof.Machine.execResponseCharacterFault f stopBit marker s
  | .transactionTimeout f => Sys2Proof.Machine.execTransactionTimeout f s
  | .strayCharacter f => Sys2Proof.Machine.execStrayCharacter f s
  | .breakStart f => Sys2Proof.Machine.execBreakStart f s
  | .breakEnd f => Sys2Proof.Machine.execBreakEnd f s
  | .preambleEnd f => Sys2Proof.Machine.execPreambleEnd f s
  | .supplyLoss => Sys2Proof.Machine.execSupplyLoss s

end Sys2Proof.Machine
end

