-- ==== Sys2Proof/Machine/Frames.lean ====
section
/-! DEFINITION. Which command the characters that cross a pin are: an exchange at the supervisory port judged at the rise
of SVCS (R187, R190 to R192), and a telegram judged at its last character (R32, R199). -/

namespace Sys2Proof.Machine

/-! ### The supervisory port -/

/-- The order of an order code, 1 to 17 in the order of the orders table (11, Field selectors). -/
def routeOrder (code : Nat) (cls : Byte) (key : Key) (data : List Byte) : Option Instr :=
  match code with
  | 1 => some (.setMode cls key data)
  | 2 => some (.isolateBay cls key data)
  | 3 => some (.restoreBay cls key data)
  | 4 => some (.openBay cls key data)
  | 5 => some (.closeBay cls key data)
  | 6 => some (.faceRelease cls key data)
  | 7 => some (.resetRelease cls key data)
  | 8 => some (.clearOverflow cls key data)
  | 9 => some (.freeze cls key data)
  | 10 => some (.unfreeze cls key data)
  | 11 => some (.lineEnable cls key data)
  | 12 => some (.lineDisable cls key data)
  | 13 => some (.stageList cls key data)
  | 14 => some (.passThrough cls key data)
  | 15 => some (.withdraw cls key data)
  | 16 => some (.restartFace cls key data)
  | 17 => some (.restartPart cls key data)
  | _ => none

/-- A LOOKUP by its class and selector (R191; MODE is 32, TABLE and LIST are 1). -/
def routeLookup (cls : Nat) (sel : Byte) (key : Key) (data : List Byte) : Option Instr :=
  match cls with
  | 1 => some (if sel = 32#8 then .lookupFaceMode key data else .lookupFace key data)
  | 2 => some (.lookupBay key data)
  | 3 => some (if sel = 1#8 then .lookupProfileTable key data else .lookupProfile key data)
  | 4 => some (.lookupBerth key data)
  | 5 => some (if sel = 1#8 then .lookupPresenceList key data else .lookupPresence key data)
  | 6 => some (if sel = 1#8 then .lookupReleaseList key data else .lookupRelease key data)
  | 7 => some (.lookupPollList key data)
  | 8 => some (.lookupNode key data)
  | 9 => some (.lookupSummary key data)
  | _ => none

/-- An AMEND by its class and selector (R191, R171). -/
def routeAmend (cls : Nat) (sel : Byte) (key : Key) (data : List Byte) : Option Instr :=
  match cls with
  | 1 => some (.amendFace key sel data)
  | 2 => some (.amendBay key sel data)
  | 3 => some (.amendProfile key sel data)
  | 7 =>
      if sel = 1#8 then some (.amendPollListRunning key data)
      else if sel = 3#8 then some (.amendPollListDiscipline key data)
      else none
  | _ => none

/-- An ENROL by its class (R191). -/
def routeEnrol (cls : Nat) (key : Key) (data : List Byte) : Option Instr :=
  match cls with
  | 2 => some (.enrolBay key data)
  | 3 => some (.enrolProfile key data)
  | _ => none

/-- A RETIRE by its class and selector (R191, R171, R172). -/
def routeRetire (cls : Nat) (sel : Byte) (key : Key) (data : List Byte) : Option Instr :=
  match cls with
  | 2 => some (.retireBay key data)
  | 3 => some (.retireProfile key data)
  | 4 => some (.retireBerth key data)
  | 7 =>
      if sel = 1#8 then some (.retirePollListRunning key data)
      else if sel = 2#8 then some (.retirePollListStaged key data)
      else none
  | _ => none

/-- R191, R192: the command of a well-formed request frame. -/
def routeRequest (kind cls : Byte) (key : Key) (sel : Byte) (data : List Byte) : Instr :=
  let routed :=
    match kind.toNat with
    | 1 => routeLookup cls.toNat sel key data
    | 2 => routeAmend cls.toNat sel key data
    | 3 => routeEnrol cls.toNat key data
    | 4 => routeRetire cls.toNat sel key data
    | 5 => routeOrder sel.toNat cls key data
    | _ => none
  routed.getD (.unadmittedRequest kind cls key sel data)

/-- The data of a request frame: the characters between the data length and the check. -/
def frameData (cs : List Byte) : List Byte := (cs.drop 8).take (cs.length - 9)

/-- R187, R188, R190: the command that an exchange is, judged at the rise of SVCS by the whole characters received and
whether the port is IDLE. An exchange without a whole character is none (R186); of a request frame the characters kept
are judged (R197; where more came, the model's choice, log entry 32). -/
def judgeExchange (idle : Bool) (cs : List Byte) : Option Instr :=
  let kept := keptChars cs
  if cs = [] then none
  else if charAt cs 1 = 6#8 then some (.fetch cs.length)
  else if idle = false then some (.overrunDiscard cs)
  else if wellFormedFrame kept then
    some (routeRequest (charAt kept 1) (charAt kept 2) ⟨charAt kept 3, charAt kept 4, charAt kept 5⟩ (charAt kept 6)
      (frameData kept))
  else some (.malformedFrame cs)

/-- The characters of a request frame (11, Request frame). -/
def Request.frame (q : Request) : List Byte :=
  withCheck256
    ([q.kind, q.cls, q.key.k1, q.key.k2, q.key.k3, q.sel, chr (q.data.length / 256), chr q.data.length] ++ q.data)

/-- The request frame of a supervisory command (11, Request frame, Field selectors); none for any other command. -/
def requestOf : Instr → Option Request
  | .unadmittedRequest kind cls key sel data => some ⟨kind, cls, key, sel, data⟩
  | .lookupFace key data => some ⟨1#8, 1#8, key, 0#8, data⟩
  | .lookupFaceMode key data => some ⟨1#8, 1#8, key, 32#8, data⟩
  | .amendFace key sel data => some ⟨2#8, 1#8, key, sel, data⟩
  | .lookupBay key data => some ⟨1#8, 2#8, key, 0#8, data⟩
  | .enrolBay key data => some ⟨3#8, 2#8, key, 0#8, data⟩
  | .amendBay key sel data => some ⟨2#8, 2#8, key, sel, data⟩
  | .retireBay key data => some ⟨4#8, 2#8, key, 0#8, data⟩
  | .lookupProfile key data => some ⟨1#8, 3#8, key, 0#8, data⟩
  | .lookupProfileTable key data => some ⟨1#8, 3#8, key, 1#8, data⟩
  | .enrolProfile key data => some ⟨3#8, 3#8, key, 0#8, data⟩
  | .amendProfile key sel data => some ⟨2#8, 3#8, key, sel, data⟩
  | .retireProfile key data => some ⟨4#8, 3#8, key, 0#8, data⟩
  | .lookupBerth key data => some ⟨1#8, 4#8, key, 0#8, data⟩
  | .retireBerth key data => some ⟨4#8, 4#8, key, 0#8, data⟩
  | .lookupPresence key data => some ⟨1#8, 5#8, key, 0#8, data⟩
  | .lookupPresenceList key data => some ⟨1#8, 5#8, key, 1#8, data⟩
  | .lookupRelease key data => some ⟨1#8, 6#8, key, 0#8, data⟩
  | .lookupReleaseList key data => some ⟨1#8, 6#8, key, 1#8, data⟩
  | .lookupPollList key data => some ⟨1#8, 7#8, key, 0#8, data⟩
  | .amendPollListRunning key data => some ⟨2#8, 7#8, key, 1#8, data⟩
  | .amendPollListDiscipline key data => some ⟨2#8, 7#8, key, 3#8, data⟩
  | .retirePollListRunning key data => some ⟨4#8, 7#8, key, 1#8, data⟩
  | .retirePollListStaged key data => some ⟨4#8, 7#8, key, 2#8, data⟩
  | .lookupNode key data => some ⟨1#8, 8#8, key, 0#8, data⟩
  | .lookupSummary key data => some ⟨1#8, 9#8, key, 0#8, data⟩
  | .setMode cls key data => some ⟨5#8, cls, key, 1#8, data⟩
  | .isolateBay cls key data => some ⟨5#8, cls, key, 2#8, data⟩
  | .restoreBay cls key data => some ⟨5#8, cls, key, 3#8, data⟩
  | .openBay cls key data => some ⟨5#8, cls, key, 4#8, data⟩
  | .closeBay cls key data => some ⟨5#8, cls, key, 5#8, data⟩
  | .faceRelease cls key data => some ⟨5#8, cls, key, 6#8, data⟩
  | .resetRelease cls key data => some ⟨5#8, cls, key, 7#8, data⟩
  | .clearOverflow cls key data => some ⟨5#8, cls, key, 8#8, data⟩
  | .freeze cls key data => some ⟨5#8, cls, key, 9#8, data⟩
  | .unfreeze cls key data => some ⟨5#8, cls, key, 10#8, data⟩
  | .lineEnable cls key data => some ⟨5#8, cls, key, 11#8, data⟩
  | .lineDisable cls key data => some ⟨5#8, cls, key, 12#8, data⟩
  | .stageList cls key data => some ⟨5#8, cls, key, 13#8, data⟩
  | .passThrough cls key data => some ⟨5#8, cls, key, 14#8, data⟩
  | .withdraw cls key data => some ⟨5#8, cls, key, 15#8, data⟩
  | .restartFace cls key data => some ⟨5#8, cls, key, 16#8, data⟩
  | .restartPart cls key data => some ⟨5#8, cls, key, 17#8, data⟩
  | .powerOnReset _ | .fetch _ | .malformedFrame _ | .overrunDiscard _ | .arrive _ _ _ _ _ | .standstillYes _ _
  | .standstillNo _ _ | .openRequest _ | .closeRequest _ | .emergencyReleaseOn _ | .emergencyReleaseOff _
  | .depart _ | .statusQuery _ | .corruptTelegram _ _ | .telegramGapExpiry _ | .trainAnswerSent _
  | .positionWaitExpiry _ | .silenceDeadlineExpiry _ | .unlockDeadlineExpiry _ _ | .openDeadlineExpiry _ _
  | .closeDeadlineExpiry _ _ | .warningDeadlineExpiry _ _ | .clearHoldExpiry _ _ _ | .modeTransitionExpiry _
  | .evacAsserted | .evacDeasserted | .pkeyChange _ _ | .popenPress _ | .pclosePress _ | .headerEnd _
  | .responseComplete _ _ | .responseCharacterFault _ _ _ | .transactionTimeout _ | .strayCharacter _
  | .breakStart _ | .breakEnd _ | .preambleEnd _ | .supplyLoss => none

/-! ### The train link -/

/-- The length of a telegram by its kind (11, Train link). -/
def telegramLength : Nat → Option Nat
  | 1 => some 10
  | 2 => some 8
  | 3 => some 3
  | 4 => some 3
  | 5 => some 4
  | 6 => some 3
  | 7 => some 3
  | _ => none

/-- A number in groups of seven bits, least significant first. -/
def sevens : List Byte → Nat
  | [] => 0
  | c :: cs => c.toNat + 128 * sevens cs

/-- A direction item: UP 1, DOWN 2. -/
def directionItem (c : Byte) : Option Direction :=
  if c = 1#8 then some .up else if c = 2#8 then some .down else none

/-- An item with two values, 1 and 2: yes/no, present/absent, on/off. -/
def twoWayItem (c : Byte) : Option Bool := if c = 1#8 then some true else if c = 2#8 then some false else none

/-- The command of the values of a telegram whose characters and check are right; none where a field has a value with no
meaning in its coding. -/
def telegramFields (f : Face) : List Byte → Option Instr
  | [_, 1#8, t0, t1, t2, p0, p1, d, n, _] =>
      (directionItem d).map fun dir => .arrive f (sevens [t0, t1, t2]) (sevens [p0, p1]) dir n.toNat
  | [_, 2#8, v, flag, h0, h1, h2, _] =>
      match twoWayItem v, twoWayItem flag with
      | some yes, some present =>
          let position := if present then some (sevens [h0, h1, h2]) else none
          some (if yes then .standstillYes f position else .standstillNo f position)
      | _, _ => none
  | [_, 3#8, _] => some (.openRequest f)
  | [_, 4#8, _] => some (.closeRequest f)
  | [_, 5#8, v, _] => (twoWayItem v).map fun on => if on then .emergencyReleaseOn f else .emergencyReleaseOff f
  | [_, 6#8, _] => some (.depart f)
  | [_, 7#8, _] => some (.statusQuery f)
  | _ => none

/-- R32, R199: the command that a run of characters from an opening character to the telegram's last one is: the good
telegram's row, or a corrupt telegram. -/
def judgeTelegram (f : Face) (cs : List TrainChar) : Instr :=
  let values := cs.map TrainChar.value
  let good := cs.all (fun c => c.parityOk && c.stopBit) && (values.drop 1).all (fun v => decide (v.toNat < 128)) &&
    values.head? == some 165#8 && checks128 values
  if good then (telegramFields f values).getD (.corruptTelegram f .judged) else .corruptTelegram f .judged

/-- A number in `n` groups of seven bits, least significant first. -/
def toSevens : Nat → Nat → List Byte
  | 0, _ => []
  | n + 1, x => chr (x % 128) :: toSevens n (x / 128)

/-- A telegram's characters with its check (11, Train link). -/
def telegram (kind : Byte) (fields : List Byte) : List Byte :=
  let cs := 165#8 :: kind :: fields
  cs ++ [check128 cs]

/-- The characters that a train sends for a telegram command; none for any other command. A yes item is 1, a no
item 2. -/
def telegramOf : Instr → Option (List Byte)
  | .arrive _ train profile dir cars =>
      some (telegram 1#8
        (toSevens 3 train ++ toSevens 2 profile ++
          [match dir with
           | .up => 1#8
           | .down => 2#8,
           chr cars]))
  | .standstillYes _ p =>
      some (telegram 2#8 ([1#8, if p.isSome then 1#8 else 2#8] ++ toSevens 3 (p.getD 0)))
  | .standstillNo _ p =>
      some (telegram 2#8 ([2#8, if p.isSome then 1#8 else 2#8] ++ toSevens 3 (p.getD 0)))
  | .openRequest _ => some (telegram 3#8 [])
  | .closeRequest _ => some (telegram 4#8 [])
  | .emergencyReleaseOn _ => some (telegram 5#8 [1#8])
  | .emergencyReleaseOff _ => some (telegram 5#8 [2#8])
  | .depart _ => some (telegram 6#8 [])
  | .statusQuery _ => some (telegram 7#8 [])
  | _ => none

end Sys2Proof.Machine
end

