-- ==== Sys2Proof/Machine/Receivers.lean ====
section
/-! DEFINITION. The characters that arrive and go out in a millisecond of an idle part (log entry 17): BC's receiver
collects a telegram (R32, R199), the BLC collects a response (R162, R164, R165), and BC's transmitter sends the answers
(R33, R200). -/

namespace Sys2Proof.Machine

/-! ### The receiver of a train link (R32, R199) -/

/-- R199: an opening character, which starts a telegram: 165 with correct parity and a stop bit of 1. One with a stop bit
of 0 inside a telegram is collected in its place (log entry 17). -/
def TrainChar.opens (c : TrainChar) : Bool := c.value == Config.opening && c.parityOk && c.stopBit

/-- R199: what one character makes of what the receiver holds, and the command it completes. -/
def receiveChar (f : Face) (held : Option PartialTelegram) (c : TrainChar) (now : Time) :
    Option PartialTelegram × Option Instr :=
  if c.opens then (some ⟨[c], now⟩, if held.isSome then some (.corruptTelegram f .newOpening) else none)
  else
    match held with
    | none => (none, none)
    | some p =>
        let cs := p.chars ++ [c]
        match telegramLength (charAt (cs.map TrainChar.value) 2).toNat with
        | none => (none, some (.corruptTelegram f .judged))
        | some n => if cs.length < n then (some ⟨cs, now⟩, none) else (none, some (judgeTelegram f cs))

/-- BC takes the next character waiting at TLRX; a gap that has run out is judged first, and the character that came
after it is taken at the next millisecond. -/
def receiveTrain (s : State) (f : Face) : FaceState × Option Instr :=
  let x := s.face f
  match x.tlrx with
  | [] => (x, none)
  | c :: rest =>
      if telegramGapDue s f then (x, none)
      else
        let r := receiveChar f x.link.receiving c s.now
        ({ x with tlrx := rest, link := { x.link with receiving := r.1 } }, r.2)

/-! ### The receiver of a bay line (R159, R162, R164, R165) -/

/-- What one character on BLRX makes of the line, and the command it completes: while the BLC sends it is not read, in a
window it is collected or ends the transaction, and outside every window it is a stray. Of a discarded response only the
number of characters is known; the values before the last are written as zeros. -/
def receiveLineChar (f : Face) (l : Line) (c : LineChar) : Line × Option Instr :=
  if l.sending then (l, none)
  else
    match l.tx, l.late with
    | some t, _ =>
        let got := t.received ++ [c.value]
        if c.stopBit = false ∨ c.marker = true then (l, some (.responseCharacterFault f c.stopBit c.marker))
        else if got.length ≤ responseLength t.address t.function then
          ({ l with tx := some { t with received := got } }, none)
        else (l, some (.responseComplete f got))
    | none, some w =>
        if w.arrived + 1 < w.size then ({ l with late := some { w with arrived := w.arrived + 1 } }, none)
        else (l, some (.responseComplete f (List.replicate w.arrived 0#8 ++ [c.value])))
    | none, none => (l, some (.strayCharacter f))

/-- The BLC takes the characters waiting at BLRX in order, up to the first that completes a command; the characters behind
it wait for that command's effect. -/
def receiveLineChars (f : Face) : List LineChar → Line → List LineChar × Line × Option Instr
  | [], l => ([], l, none)
  | c :: cs, l =>
      match receiveLineChar f l c with
      | (l', some i) => (cs, l', some i)
      | (l', none) => receiveLineChars f cs l'

/-- Both receivers of a face: its record after them, and the commands they completed. -/
def receives (s : State) (f : Face) : FaceState × List Instr :=
  let r := receiveTrain s f
  let q := receiveLineChars f r.1.blrx r.1.line
  ({ r.1 with blrx := q.1, line := q.2.1 }, r.2.toList ++ q.2.2.toList)

/-! ### The transmitter of a train link (R33, R200) -/

/-- A millisecond of sending on TLTX. The character in which a restart cut an answer ends, and the next answer begins. -/
def FaceState.sendsOn (x : FaceState) : FaceState :=
  let elapsed := x.tltx.elapsed + Config.trainTenthsPerMs
  match x.tltx.cut, x.link.answers with
  | some cs, answers =>
      let whole := Config.trainCharTenths * cs.length
      if elapsed < whole then { x with tltx := { x.tltx with elapsed := elapsed } }
      else { x with tltx := ⟨if answers = [] then 0 else elapsed - whole, none⟩ }
  | none, _ :: _ => { x with tltx := { x.tltx with elapsed := elapsed } }
  | none, [] => x

/-- R200: the last stop bit of the answer being sent has gone. -/
def FaceState.answerGone (x : FaceState) : Bool :=
  match x.tltx.cut, x.link.answers with
  | none, a :: _ => decide (Config.trainCharTenths * a.length ≤ x.tltx.elapsed)
  | none, [] | some _, _ => false

end Sys2Proof.Machine
end

