-- ==== Sys2Proof/Machine/Timers.lean ====
section
/-! DEFINITION. The millisecond of an idle part (log entry 1): the time base counts, the inputs are sampled (R201), the
transmitters send on, the receivers take what has arrived, and every timer that has become due puts its expiry in the
queue. -/

namespace Sys2Proof.Machine

/-- The levels at the pins as the environment sets them; nothing else changes. -/
def State.drive (s : State) (pins : PinLevels) : State :=
  let set (x : FaceState) (key open_ close : Bool) : FaceState :=
    { x with pkey := { x.pkey with pin := key }, popen := { x.popen with pin := open_ }
             pclose := { x.pclose with pin := close } }
  { s with
    evac := { s.evac with pin := pins.evac }
    faces :=
      { f0 := set s.faces.f0 pins.pkey.f0 pins.popen.f0 pins.pclose.f0
        f1 := set s.faces.f1 pins.pkey.f1 pins.popen.f1 pins.pclose.f1
        f2 := set s.faces.f2 pins.pkey.f2 pins.popen.f2 pins.pclose.f2
        f3 := set s.faces.f3 pins.pkey.f3 pins.popen.f3 pins.pclose.f3 } }

/-! ### Sampling (R201) -/

/-- R201: one sample: the run of samples at the other level grows, or ends. -/
def InputPin.sampled (p : InputPin) : InputPin := { p with run := if p.pin = p.taken then 0 else p.run + 1 }

/-- R201: the sample completes 20 consecutive samples at the new level. -/
def InputPin.changes (p : InputPin) : Bool := decide (Config.inputSamples ≤ p.run)

/-- R201: a button let go for 20 samples is no event: its level is taken and nothing else. -/
def InputPin.letGo (p : InputPin) : InputPin := if p.changes && !p.pin then .start false else p

/-- R201: the inputs of the part are sampled. -/
def samplePins (s : State) : State :=
  let sampleFace (f : Face) (s : State) : State :=
    s.modFace f fun x =>
      { x with pkey := x.pkey.sampled, popen := x.popen.sampled.letGo, pclose := x.pclose.sampled.letGo }
  forEach allFaces sampleFace { s with evac := s.evac.sampled }

/-- A command where its condition holds. -/
def whenDue (due : Bool) (c : Instr) : List Instr := if due then [c] else []

/-- R201: the change of EVAC that a sample completes. -/
def evacChange (s : State) : List Instr :=
  whenDue s.evac.changes (if s.evac.pin then .evacAsserted else .evacDeasserted)

/-- R201: the changes of a face's inputs that a sample completes. -/
def panelChanges (s : State) (f : Face) : List Instr :=
  let x := s.face f
  whenDue x.pkey.changes (.pkeyChange f x.pkey.pin) ++ whenDue (x.popen.changes && x.popen.pin) (.popenPress f) ++
    whenDue (x.pclose.changes && x.pclose.pin) (.pclosePress f)

/-! ### Timers -/

/-- The expiries of a bay's deadline that are due (R84, R90). -/
def bayExpiries (s : State) (f : Face) (x : Bay) : List Instr :=
  whenDue (bayDeadlineDue s x .unlock) (.unlockDeadlineExpiry f x.num) ++
    whenDue (bayDeadlineDue s x .open) (.openDeadlineExpiry f x.num) ++
    whenDue (bayDeadlineDue s x .close) (.closeDeadlineExpiry f x.num) ++
    whenDue (bayDeadlineDue s x .warning) (.warningDeadlineExpiry f x.num)

/-- The expiries of a face that are due, in the model's order (log entry 1). -/
def faceExpiries (s : State) (f : Face) : List Instr :=
  whenDue (s.face f).answerGone (.trainAnswerSent f) ++ whenDue (telegramGapDue s f) (.telegramGapExpiry f) ++
    whenDue (dueNow s (s.face f).berth.positionWait) (.positionWaitExpiry f) ++
    whenDue (dueNow s (s.face f).berth.silence) (.silenceDeadlineExpiry f) ++
    ((s.face f).bays.map (bayExpiries s f)).flatten ++
    whenDue (modeTransitionDue s f) (.modeTransitionExpiry f)

/-- The clear-holds that are due (R106). -/
def clearHoldExpiries (s : State) : List Instr :=
  (s.presence.map fun r => whenDue (clearHoldDueAt s r) (.clearHoldExpiry r.face r.bay r.zone)).flatten

/-- The transmitters of the train links send on for a millisecond. -/
def sendAnswers (s : State) : State := forEach allFaces (fun f s => s.modFace f FaceState.sendsOn) s

/-- R184: the character in progress at a restart ends in this millisecond (log entry 34): it is taken from BLRX where it was
being received, and the transaction is abandoned. -/
def endCharacter (f : Face) (s : State) : State :=
  let l := (s.face f).line
  if l.abandoning then
    abandonAtEnd f (s.modFace f fun x => { x with blrx := if l.sending then x.blrx else x.blrx.drop 1 })
  else s

/-- The receivers take what has arrived. -/
def takeCharacters (s : State) : State := forEach allFaces (fun f t => t.modFace f fun _ => (receives s f).1) s

/-- The commands that a millisecond brings, `received` those of the receivers. -/
def tickCommands (s : State) (received : List Instr) : List Instr :=
  evacChange s ++ (allFaces.map (panelChanges s)).flatten ++ received ++ (allFaces.map (faceExpiries s)).flatten ++
    clearHoldExpiries s

/-- The millisecond of an idle part: running, the time base counts, the inputs are sampled, answers and characters move
on, and the commands the millisecond brings are queued; without supply, and while POR is held low, nothing happens
(R201). -/
def tick (s : State) : State :=
  if s.powered then
    let s1 := forEach allFaces endCharacter (sendAnswers (samplePins { s with now := s.now + 1#32 }))
    let s2 := takeCharacters s1
    { s2 with pending := tickCommands s2 (allFaces.map fun f => (receives s1 f).2).flatten }
  else s

end Sys2Proof.Machine
end

