-- ==== Sys2Proof/Machine/Exchange.lean ====
section
/-! DEFINITION. An exchange on the supervisory port, edge by edge (R186, R189, log entry 31): what the environment does at
SVCS, SVCK and SVDI, and what the port presents at SVDO. -/

namespace Sys2Proof.Machine

/-- The commands of a queue taken in order, each with the rest of the queue behind it. No time passes. -/
def takeAll : List Instr → State → State
  | [], s => s
  | c :: rest, s =>
      match exec c { s with pending := rest } with
      | .next t => takeAll rest t
      | .fault _ | .refused _ => takeAll rest { s with pending := rest }

/-- The state once every command that waits has been taken: what came before an edge of SVCS is taken before it (log entry
31). -/
def State.caughtUp (s : State) : State := takeAll s.pending s

/-- R186: SVCS falls, and an exchange begins. The port state and the answer that it fixes are those that the commands before
it have left (R188 to R190). -/
def State.svcsFalls (s : State) : State :=
  let u := s.caughtUp
  if u.powered = true ∧ u.port.exchange = none then
    { u with port := { u.port with exchange := some ⟨exchangeStart u, [], 0⟩ } }
  else u

/-- R186: a rising edge of SVCK: during an exchange the port takes the bit at SVDI. -/
def State.svckRises (svdi : Bool) (s : State) : State :=
  { s with port := { s.port with exchange := s.port.exchange.map fun e => { e with taken := e.taken ++ [svdi] } } }

/-- R186: a falling edge of SVCK: the port presents its next bit. -/
def State.svckFalls (s : State) : State :=
  { s with port := { s.port with exchange := s.port.exchange.map fun e => { e with falls := e.falls + 1 } } }

/-- A run of bits clocked with SVCK, the station controller's at SVDI. -/
def State.clocks (s : State) : List Bool → State
  | [] => s
  | b :: bs => (s.svckRises b).svckFalls.clocks bs

/-- R186, R187, R189, R190: SVCS rises, and the exchange ends: it is judged by the port state that the commands before it
have left, and the command it is is the next to be taken. -/
def State.svcsRises (s : State) : State :=
  let u := s.caughtUp
  match u.port.exchange with
  | none => u
  | some e =>
      let ended := { u with port := { u.port with exchange := none } }
      match u.powered, judgeExchange (u.port.state == .idle) (wholeChars e.taken) with
      | true, some c => { ended with pending := [c], port := { ended.port with begun := some e.start } }
      | true, none | false, _ => ended

/-- R186, R189: the characters that the port presents in an exchange: the status character and, in a FETCH, the answer
frame; all ones beyond them. -/
def Exchange.charAt (e : Exchange) (i : Nat) : Byte :=
  let frame := if Machine.charAt (wholeChars e.taken) 1 = 6#8 then e.start.frame.getD [] else []
  ((e.start.status :: frame)[i]?).getD 255#8

/-- R186: the level of SVDO, where it is driven and a bit has been presented: the bit presented after the last falling edge
of SVCK, most significant first. -/
def State.svdo (s : State) : Option Bool :=
  match s.powered, s.port.exchange with
  | true, some e =>
      match e.falls with
      | 0 => none
      | k + 1 => (portBits (e.charAt (k / 8)))[k % 8]?
  | true, none | false, _ => none

end Sys2Proof.Machine
end

