-- ==== Sys2Proof/Safety.lean ====
section
/-! DEFINITION. What claims are stated in: the invariants that the spec gives the part's records, a part ready to take a
request, and the answer it leaves. -/

namespace Sys2Proof.Machine

/-! ### A request taken and answered -/

/-- The part has supply and its port is IDLE: a request frame taken now is worked (R188). -/
def State.takesRequests (s : State) : Prop := s.powered = true ∧ s.port.state = .idle

/-- The port after a request was taken in IDLE and answered: the answer in the buffer, no request being worked on, the
overrun mark as it was, and on SVDO the status character that the exchange began with and then all ones (R186, R188). -/
def State.answered (s : State) (q : Request) (code : AnswerCode) (data : List Byte) : Port where
  state := .answerReady
  request := none
  answer := some ⟨q.kind, q.cls, q.key, code, data⟩
  overrun := s.port.overrun
  svdo := idleChars s q.length
  exchange := s.port.exchange
  begun := none

/-- A request taken in IDLE is answered, and the rest of the state becomes that of `t`. -/
def Answers (i : Instr) (s : State) (code : AnswerCode) (data : List Byte) (t : State) : Prop :=
  ∃ q, requestOf i = some q ∧ exec i s = .next { t with port := s.answered q code data }

/-- A good telegram is taken: the part has supply, and fewer than 4 answers wait on the face's train link (R33). -/
def State.takesTelegrams (s : State) (f : Face) : Prop :=
  s.powered = true ∧ (s.face f).link.answers.length < Config.answerCapacity

/-! ### The face that a command concerns -/

/-- The face of a telegram, a timer, a panel input, a line event, or a supervisory command whose key names a face;
restarts and the commands of no one face have none. -/
def commandFace : Instr → Option Face
  | .arrive f _ _ _ _ | .standstillYes f _ | .standstillNo f _ | .openRequest f | .closeRequest f
  | .emergencyReleaseOn f | .emergencyReleaseOff f | .depart f | .statusQuery f | .corruptTelegram f _
  | .telegramGapExpiry f | .trainAnswerSent f | .positionWaitExpiry f | .silenceDeadlineExpiry f
  | .unlockDeadlineExpiry f _ | .openDeadlineExpiry f _ | .closeDeadlineExpiry f _ | .warningDeadlineExpiry f _
  | .clearHoldExpiry f _ _ | .modeTransitionExpiry f | .pkeyChange f _ | .popenPress f | .pclosePress f
  | .headerEnd f | .responseComplete f _ | .responseCharacterFault f _ _ | .transactionTimeout f
  | .strayCharacter f | .breakStart f | .breakEnd f | .preambleEnd f => some f
  | .lookupFace k _ | .lookupFaceMode k _ | .amendFace k _ _ | .lookupBay k _ | .enrolBay k _ | .amendBay k _ _
  | .retireBay k _ | .lookupBerth k _ | .retireBerth k _ | .lookupPresence k _ | .lookupPollList k _
  | .amendPollListRunning k _ | .amendPollListDiscipline k _ | .retirePollListRunning k _
  | .retirePollListStaged k _ | .lookupNode k _ | .setMode _ k _ | .isolateBay _ k _ | .restoreBay _ k _
  | .openBay _ k _ | .closeBay _ k _ | .faceRelease _ k _ | .clearOverflow _ k _ | .freeze _ k _
  | .unfreeze _ k _ | .lineEnable _ k _ | .lineDisable _ k _ | .stageList _ k _ | .passThrough _ k _
  | .withdraw _ k _ => faceOf k.k1
  | .powerOnReset _ | .fetch _ | .malformedFrame _ | .overrunDiscard _ | .unadmittedRequest _ _ _ _ _
  | .lookupProfile _ _ | .lookupProfileTable _ _ | .enrolProfile _ _ | .amendProfile _ _ _ | .retireProfile _ _
  | .lookupPresenceList _ _ | .lookupRelease _ _ | .lookupReleaseList _ _ | .lookupSummary _ _
  | .resetRelease _ _ _ | .restartFace _ _ _ | .restartPart _ _ _ | .evacAsserted | .evacDeasserted
  | .supplyLoss => none

/-- The key of a supervisory command whose key names a face. -/
def faceKey : Instr → Option Key
  | .lookupFace k _ | .lookupFaceMode k _ | .amendFace k _ _ | .lookupBay k _ | .enrolBay k _ | .amendBay k _ _
  | .retireBay k _ | .lookupBerth k _ | .retireBerth k _ | .lookupPresence k _ | .lookupPollList k _
  | .amendPollListRunning k _ | .amendPollListDiscipline k _ | .retirePollListRunning k _
  | .retirePollListStaged k _ | .lookupNode k _ | .setMode _ k _ | .isolateBay _ k _ | .restoreBay _ k _
  | .openBay _ k _ | .closeBay _ k _ | .faceRelease _ k _ | .clearOverflow _ k _ | .freeze _ k _
  | .unfreeze _ k _ | .lineEnable _ k _ | .lineDisable _ k _ | .stageList _ k _ | .passThrough _ k _
  | .withdraw _ k _ | .restartFace _ k _ => some k
  | _ => none

/-- R197: the data of a request is what its selector or its order asks for. A selector that its owner refuses asks for
nothing; AMEND PROFILE is judged after its code and is left out here. -/
def coded : Instr → Bool
  | .lookupFace _ d | .lookupFaceMode _ d | .lookupBay _ d | .retireBay _ d | .lookupProfile _ d
  | .lookupProfileTable _ d | .retireProfile _ d | .lookupBerth _ d | .retireBerth _ d | .lookupPresence _ d
  | .lookupPresenceList _ d | .lookupRelease _ d | .lookupReleaseList _ d | .lookupPollList _ d
  | .retirePollListRunning _ d | .retirePollListStaged _ d | .lookupNode _ d | .lookupSummary _ d
  | .isolateBay _ _ d | .restoreBay _ _ d | .openBay _ _ d | .closeBay _ _ d | .resetRelease _ _ d
  | .clearOverflow _ _ d | .freeze _ _ d | .unfreeze _ _ d | .lineEnable _ _ d | .lineDisable _ _ d
  | .withdraw _ _ d | .restartFace _ _ d | .restartPart _ _ d => d.isEmpty
  | .amendFace _ sel d =>
      if (settingOf sel.toNat).isSome ∨ sel = 13#8 then (readNum d).isSome
      else if sel = 1#8 ∨ (64 ≤ sel.toNat ∧ sel.toNat ≤ 73) ∨ (80 ≤ sel.toNat ∧ sel.toNat ≤ 89) then
        (readOptionalNum d).isSome
      else if sel = 18#8 ∨ (21 ≤ sel.toNat ∧ sel.toNat ≤ 23) then (readEnum d).isSome
      else true
  | .enrolBay _ d => (readTwoNums d).isSome
  | .amendBay _ sel d => if sel = 1#8 ∨ sel = 2#8 then (readNum d).isSome else true
  | .enrolProfile _ d => (readProfile d).isSome
  | .amendPollListRunning _ d | .stageList _ _ d => (readPollList d).isSome
  | .amendPollListDiscipline _ d => ((readEnum d).bind disciplineOf).isSome
  | .setMode _ _ d | .faceRelease _ _ d | .passThrough _ _ d => (readEnum d).isSome
  | _ => true

/-! ### What a rule leaves of a face -/

/-- R154: FI's copies become `c`: proving is what they give, PROVING_CHANGE is latched where it changes, and nothing
else of the face changes. -/
def FaceState.proved (x : FaceState) (c : Conditions) : FaceState :=
  { x with
    fi := { x.fi with conditions := c, proving := c.all }
    attn := if c.all = x.fi.proving then x.attn else x.attn ||| Attn.provingChange.bit }

/-- R33, R34: a good telegram is heard and gets its answer, and its rule changes nothing: the last telegram time, the
silent flag and the silence deadline of the berth, and the answer at the tail of the queue. -/
def State.heard (s : State) (f : Face) (answer : List Byte) : State :=
  s.modFace f fun x =>
    { x with
      berth :=
        { x.berth with
          lastTelegram := some s.now, silent := false
          silence := if x.berth.state = .vacant then none else some (s.after x.config.silence) }
      link := ⟨none, x.link.answers ++ [answer]⟩ }

/-- An answer of four characters: 166, the kind answered, the code, and the check (R199). -/
def plain (kind : Byte) (code : TrainCode) : List Byte := trainAnswer kind code []

/-- R45: the VACANT values of a berth; the counters, the last telegram time and the silent flag stay. -/
def Berth.vacated (x : Berth) : Berth :=
  { Berth.powerOn with
    lastTelegram := x.lastTelegram, silent := x.silent, corrupt := x.corrupt, dropped := x.dropped }

/-- The presence records but for GM's entrapment flags (R114). -/
def State.presenceBare (s : State) : List Presence := s.presence.map fun r => { r with reported := false }

/-- The time base, the tables, the lists but for GM's entrapment flags (R114), the port, the resets' marks, the queue and
every face but one are as before. -/
def State.elsewhere (f : Face) (s t : State) : Prop :=
  t = { s with faces := t.faces, presence := t.presence } ∧ t.presenceBare = s.presenceBare ∧
    ∀ g, g ≠ f → t.face g = s.face g

/-- The static fields of a bay (R9). -/
def Bay.static (x : Bay) : Nat × Nat × Nat := (x.num, x.centre, x.width)

/-- What waits at a face's receivers and what its transmitter is sending. -/
def FaceState.wires (x : FaceState) : List TrainChar × TrainTransmitter × List LineChar := (x.tlrx, x.tltx, x.blrx)

/-- What no door, berth or release event touches: the configuration record, the inputs, the wires, which bays are
enrolled and where, AU's readings, fusion result and count, and of the line all but the command queue. -/
def FaceState.fixed (x y : FaceState) : Prop :=
  y.config = x.config ∧ y.popen = x.popen ∧ y.pclose = x.pclose ∧ y.pkey = x.pkey ∧ y.wires = x.wires ∧
    y.bays.map Bay.static = x.bays.map Bay.static ∧
    y.au = { x.au with markerRequest := y.au.markerRequest, nextMarker := y.au.nextMarker } ∧
    y.line = { x.line with queue := y.line.queue }

/-- FI waits for nothing: no request is pending and no census runs, so a bay or berth event changes no more of it than
its copy of condition 2 and proving (R141, R144, R154). -/
def Interlock.settled (x : Interlock) : Prop :=
  x.request = none ∧ x.mode ≠ .starting ∧ ¬(x.mode = .evacuation ∧ x.stored = some .starting)

/-- No more of FI changed than its copy of condition 2 and proving. -/
def Interlock.onlySecure (x y : Interlock) : Prop :=
  y = { x with conditions := { x.conditions with secure := y.conditions.secure }, proving := y.proving }

/-- Of the kinds of attention, those of a list may have been latched and no others. -/
def State.latchesOnly (f : Face) (ks : List Attn) (s t : State) : Prop :=
  ∀ k, (s.latched f k = true → t.latched f k = true) ∧ (k ∉ ks → t.latched f k = s.latched f k)

/-- R177: a face that enters the frozen state: frozen and break pending are set, FI's condition 5 fails, and the
deadline of every bay is suspended (R98); a frozen face is as it was. -/
def FaceState.frozenNow (x : FaceState) : FaceState :=
  if x.line.frozen then x
  else
    { { x with line := { x.line with frozen := true, breakPending := true } }.proved { x.fi.conditions with line := false }
      with bays := x.bays.map fun b => { b with deadline := b.deadline.map fun d => { d with suspended := true } } }

/-- R98: a deadline armed at the present for a time in milliseconds; on a frozen line it is armed suspended. -/
def State.deadline (s : State) (f : Face) (kind : DeadlineKind) (ms : Nat) : Option BayDeadline :=
  some (if (s.face f).line.frozen then ⟨kind, none, true⟩ else ⟨kind, some (s.after ms), false⟩)

/-- R84: a bay whose warning period starts: the staged duration is copied, and the deadline is armed unless presence is
standing. -/
def State.warned (s : State) (f : Face) (x : Bay) : Bay :=
  { x with
    state := .warning, liveWarning := some (s.face f).config.warning
    deadline := if s.presenceStanding f x.num then none else s.deadline f .warning (s.face f).config.warning }

/-- R90: a bay that faults. -/
def Bay.faultedNow (x : Bay) : Bay :=
  { x with state := .faulted, reopens := 0, deadline := none, liveWarning := none, lastCommand := some .hold }

/-- R80: a masked bay after an open event. -/
def State.opened (s : State) (f : Face) (x : Bay) : Bay :=
  let unlocking :=
    { x with
      state := .unlocking, reopens := 0, liveWarning := none, lastCommand := some .open
      deadline := s.deadline f .unlock (s.face f).config.unlockLimit }
  match x.state with
  | .closedLocked | .closing | .reopening => unlocking
  | .warning =>
      if x.lastCommand = some .open then { x with state := .open, reopens := 0, deadline := none, liveWarning := none }
      else unlocking
  | .released => { x with lastCommand := some (releaseCommand s f x.num) }
  | .unlocking | .opening | .open | .heldOpen | .unknown | .faulted | .isolated => x

/-- R96: a bay whose coverage ends takes CLOSED_LOCKED where its lock is confirmed (giving CLOSE where its last command
was OPEN), OPEN where it is in service, and otherwise starts a close with warning. -/
def State.uncovered (s : State) (f : Face) (x : Bay) : Bay :=
  if x.lockConfirmed then
    { x with
      state := .closedLocked, deadline := none, liveWarning := none, reopens := 0
      lastCommand := if x.lastCommand = some .open then some .close else x.lastCommand }
  else if s.inService f x.num then
    { x with state := .open, deadline := none, liveWarning := none, lastCommand := some .open }
  else s.warned f x

/-- R95: a bay after its face's berth has dropped the snapshot, where it held one: a RELEASED bay is given HOLD. -/
def State.unmasked (s : State) (f : Face) (x : Bay) : Bay :=
  if x.state = .released ∧ (s.face f).berth.snapshot.isSome = true then { x with lastCommand := some .hold } else x

/-- R95: the release command of a bay under a coverage. -/
def State.releasesWith (s : State) (f : Face) (b : Nat) (c : Coverage) : DoorCommand :=
  if c = .opening ∧ b ∈ s.mask f then .open else .hold

/-- R94 to R96, R133: a bay whose coverage becomes `c`: a bay that becomes covered is RELEASED with its release command, but
for one that is UNKNOWN, FAULTED or ISOLATED; a RELEASED bay covered otherwise is given the command of its new coverage, and
one no longer covered takes its state by R96. -/
def State.covered (s : State) (f : Face) (x : Bay) (c : Coverage) : Bay :=
  if c = s.coverage f x.num then x
  else
    match x.state with
    | .unknown | .faulted | .isolated => x
    | .released =>
        if c = .none then s.uncovered f x else { x with lastCommand := some (s.releasesWith f x.num c) }
    | .closedLocked | .unlocking | .opening | .open | .warning | .closing | .reopening | .heldOpen =>
        if c = .none then x
        else
          { x with
            state := .released, deadline := none, liveWarning := none, reopens := 0
            lastCommand := some (s.releasesWith f x.num c) }

/-- A command of DS to a bay joins the tail of the command queue, the bay's waiting one removed (R174). -/
def Line.commanded (l : Line) (b : Nat) (c : DoorCommand) : Line :=
  { l with queue := l.queue.filter (fun q => q.bay != b) ++ [⟨b, c⟩] }

/-- R76, R174: what DS's command to a bay, its new last command, does to the line: it joins the queue, but for an OPEN or
CLOSE on a frozen line, which is only recorded. A last command that stays was not given again. -/
def Line.handed (l : Line) (b : Nat) (before after : Option DoorCommand) : Line :=
  match after with
  | some c => if before ≠ after ∧ (c = .hold ∨ l.frozen = false) then l.commanded b c else l
  | none => l

/-- R76, R174: the command queue after an event that has reached the bays of `order` one after the other, each once (log
entry 28). -/
def State.handsOver (f : Face) (order : List Nat) (s t : State) : Prop :=
  (t.face f).line.queue =
    (order.eraseDups.foldl
      (fun l b =>
        match s.bay? f b, t.bay? f b with
        | some x, some y => l.handed b x.lastCommand y.lastCommand
        | some _, none | none, _ => l)
      (s.face f).line).queue

/-- R176: a command to a bay waits in the queue, or is in the header that is going out. -/
def Line.carries (l : Line) (b : Nat) (c : DoorCommand) : Prop :=
  ⟨b, c⟩ ∈ l.queue ∨ ∃ t, l.tx = some t ∧ t.cls = .command ∧ t.function = c.line ∧ b ∈ t.bays

/-- Every bay of a face but one is as before. -/
def State.otherBays (f : Face) (b : Nat) (s t : State) : Prop := ∀ c, c ≠ b → t.bay? f c = s.bay? f c

/-- R45, R49, R53: what going VACANT leaves, beside the berth record itself: the profile reference is released,
BERTH_CHANGE is latched, AU asks for no marker, and a pending request for MAINTENANCE is granted where every bay is
secure (R144). Of the bays, only a RELEASED one is given another command, its mask being dropped (R95), and that joins the
command queue. -/
def State.afterVacancy (f : Face) (s t : State) : Prop :=
  t = { s with profiles := (releaseReference f s).profiles, faces := t.faces, presence := t.presence } ∧
    t.presenceBare = s.presenceBare ∧ (∀ g, g ≠ f → t.face g = s.face g) ∧ (s.face f).fixed (t.face f) ∧
    (t.face f).au.markerRequest = false ∧ t.latched f .berthChange = true ∧
    (t.face f).releaseOverflow = (s.face f).releaseOverflow ∧
    (∀ b x, s.bay? f b = some x → t.bay? f b = some (s.unmasked f x)) ∧ s.handsOver f (s.bayNums f) t ∧
    (if (s.face f).fi.request.isSome ∧ s.allSecure f = true then
        (t.face f).fi.mode = .maintenance ∧ (t.face f).fi.request = none ∧ (t.face f).fi.proving = false ∧
          t.latched f .modeDone = true
      else (t.face f).fi = (s.face f).fi)

/-- R38: the head position that a STANDSTILL yes brings. -/
def headTaken (c : FaceConfig) (position : Option Nat) : Option Nat :=
  match position, c.lf with
  | some p, some lf => if p ≤ lf then some p else none
  | _, _ => none

/-- A LIST transaction's bay STATUS response to bay `b` whose characters `chars` are all there with a right check, the
node being within reach once its link health is updated (R104, R127, R164), and no restart having abandoned it. -/
def State.reporting (s : State) (f : Face) (b : Nat) (chars : List Byte) : Prop :=
  s.powered = true ∧ 1 ≤ b ∧ b ≤ 32 ∧ chars.length = 7 ∧ charSum chars % 256 = 0 ∧
    (((s.face f).line.node b).after true).link ≠ .lost ∧ (s.face f).line.abandoning = false ∧
    ∃ t w, (s.face f).line.tx = some t ∧ t.window = some w ∧ t.cls = .list ∧ t.function = .status ∧ t.address = b

/-- A presence record but for GM's entrapment flag. -/
def Presence.bare (r : Presence) : Presence := { r with reported := false }

/-- The presence record at a key, but for its entrapment flag. -/
def State.bareAt (s : State) (f : Face) (b : Nat) (z : Zone) : Option Presence := (s.presenceAt f b z).map Presence.bare

/-! ### Characters that arrive -/

/-- R184: a transaction not yet decided is in progress with a character: of its header, or, waiting at BLRX, in its window
(log entry 34). -/
def FaceState.waitsToAbandon (x : FaceState) : Prop :=
  ∃ t, x.line.tx = some t ∧ (t.window = none ∨ x.blrx ≠ [])

/-- R32, R199: what a millisecond's character at TLRX does to the receiver, and the command it brings. A gap that has run
out is judged first. -/
def State.receivesTrain (f : Face) (s t : State) : Prop :=
  let held := (s.face f).link.receiving
  let held' := (t.face f).link.receiving
  ((∃ p, held = some p ∧ 50 < t.age p.lastAt) → (t.face f).tlrx = (s.face f).tlrx ∧ held' = held) ∧
    ((∀ p, held = some p → t.age p.lastAt ≤ 50) → ∀ c rest, (s.face f).tlrx = c :: rest →
      (t.face f).tlrx = rest ∧
        (c = ⟨165#8, true, true⟩ →
          held' = some ⟨[c], t.now⟩ ∧ (held.isSome = true → Instr.corruptTelegram f .newOpening ∈ t.pending)) ∧
        (c ≠ ⟨165#8, true, true⟩ →
          (held = none → held' = none) ∧
            ∀ p, held = some p → ∀ cs, cs = p.chars ++ [c] → ∀ kind, cs[1]? = some kind →
              (kind.value.toNat = 0 ∨ 7 < kind.value.toNat →
                held' = none ∧ Instr.corruptTelegram f .judged ∈ t.pending) ∧
              ∀ n, (kind.value.toNat, n) ∈ [(1, 10), (2, 8), (3, 3), (4, 3), (5, 4), (6, 3), (7, 3)] →
                (cs.length < n → held' = some ⟨cs, t.now⟩) ∧
                  (n ≤ cs.length → held' = none ∧ judgeTelegram f cs ∈ t.pending)))

/-- R159, R162, R164, R165: what one character `c` on BLRX does to the line in a millisecond, and the command it brings:
nothing while the BLC sends; in the window of a transaction not yet decided it is collected, ends it by a fault, or is the
(R + 1)th; in a window decided earlier it is counted, or is the last; outside every window it is a stray. The values before
the last of a decided window are written as zeros (log entry 17). -/
def State.receivesLine (f : Face) (c : LineChar) (s t : State) : Prop :=
  let l := (s.face f).line
  let l' := (t.face f).line
  (l.sending = true → l' = l ∧ (∀ chars, Instr.responseComplete f chars ∉ t.pending) ∧ Instr.strayCharacter f ∉ t.pending) ∧
    (l.sending = false →
      (∀ x, l.tx = some x →
        (c.stopBit = false ∨ c.marker = true →
          l' = l ∧ Instr.responseCharacterFault f c.stopBit c.marker ∈ t.pending) ∧
        (c.stopBit = true → c.marker = false → ∀ r, r = (if x.function = .status ∧ x.address ≤ 32 then 6 else 4) →
          (x.received.length < r → l' = { l with tx := some { x with received := x.received ++ [c.value] } }) ∧
            (r ≤ x.received.length →
              l' = l ∧ Instr.responseComplete f (x.received ++ [c.value]) ∈ t.pending))) ∧
      (l.tx = none → ∀ w, l.late = some w →
        (w.arrived + 1 < w.size → l' = { l with late := some { w with arrived := w.arrived + 1 } }) ∧
          (w.size ≤ w.arrived + 1 →
            l' = l ∧ Instr.responseComplete f (List.replicate w.arrived 0#8 ++ [c.value]) ∈ t.pending)) ∧
      (l.tx = none → l.late = none → l' = l ∧ Instr.strayCharacter f ∈ t.pending))

/-! ### The end of a transaction -/

/-- A LIST or MARKER transaction: one that link health counts (R167). -/
def Transaction.polled (t : Transaction) : Bool := t.cls == .list || t.cls == .marker

/-- R164, R166 to R168: the node record after a transaction to it has ended. -/
def Node.ended (n : Node) (t : Transaction) (o : TxOutcome) (data : List Byte) (now : Time) : Node :=
  let m := if t.polled then n.after (o == .success) else n
  { m with
    last := some ⟨o, now⟩, identity := if o = .success ∧ t.function = .ident then some data else m.identity }

/-- The end of a transaction makes a node enter LOST (R169). -/
def Node.losesLink (n : Node) (t : Transaction) (o : TxOutcome) : Bool :=
  t.polled && n.link != .lost && (n.after (o == .success)).link == .lost

/-- R173: the running list, the staged slot, the position and the starved flag after a LIST transaction of a pass. -/
def Line.movedOn (l l' : Line) (p : PollList) : Prop :=
  if l.position < p.entries.length then
    l'.position = l.position + 1 ∧ l'.running = l.running ∧ l'.staged = l.staged ∧ l'.starved = l.starved
  else
    l'.position = 1 ∧
      match p.discipline, l.staged with
      | .repeat, _ => l'.running = some p ∧ l'.staged = l.staged ∧ l'.starved = l.starved
      | .chain, some q => l'.running = some q ∧ l'.staged = none ∧ l'.starved = l.starved
      | .chain, none => l'.running = some p ∧ l'.staged = none ∧ l'.starved = true

/-- R79: a bay whose node has entered LOST. -/
def Bay.lostLink (x : Bay) (action : LostAction) : Bay :=
  { x with
    state := if x.isolated ∨ action = .isolate then .isolated else .unknown
    isolated := x.isolated || action == .isolate
    lockConfirmed := false, reopens := 0, deadline := none, liveWarning := none, restorePending := false
    lastReport := x.lastReport.map fun q => { q with beforeLoss := true }
    lastCommand :=
      if x.isolated then x.lastCommand
      else
        match action with
        | .report => none
        | .isolate => some .hold }

/-- R74: `m` is the marker after `k` in the cyclic order M1, M2, M3, M4 among those that the running list names; `k` itself
comes last. -/
def Line.followingNamed (l : Line) (k m : Marker) : Prop :=
  ∃ before after : List Marker,
    [markerNext k, markerNext (markerNext k), markerNext (markerNext (markerNext k)), k] = before ++ m :: after ∧
      l.namesMarker m = true ∧ ∀ j ∈ before, l.namesMarker j = false

/-- R72 to R74: AU's interleave count, next marker and MARKER request after a transaction: a LIST one counts, and a request
that it raises names a marker of the running list; a MARKER one resets the count, moves on to the marker that follows and
leaves no request. A PASS one is not reported. -/
def State.interleaved (s u : State) (f : Face) (cls : TxClass) : Prop :=
  let l := (s.face f).line
  let a := (s.face f).au
  let a' := (u.face f).au
  (cls = .list →
      a'.interleaveCount = (if a.interleaveCount < 8 then a.interleaveCount + 1 else 8) ∧
        a'.markerRequest = u.wantsMarker f ∧
        ((u.face f).line.running = l.running →
          (l.namesMarker a.nextMarker = true → a'.nextMarker = a.nextMarker) ∧
            (l.namesMarker a.nextMarker = false → a.markerRequest = false → a'.markerRequest = true →
              l.followingNamed a.nextMarker a'.nextMarker))) ∧
    (cls = .marker →
      a'.interleaveCount = 0 ∧ a'.markerRequest = false ∧
        (l.namesMarker a.nextMarker = true → l.followingNamed a.nextMarker a'.nextMarker)) ∧
    (cls = .pass → a' = a)

/-- R79, R115, R169: what a bay's node that has entered LOST leaves: the bay, the HOLD that ISOLATE gives it (waiting, or
already in a header), and the clear-holds of its presence records, suspended. -/
def State.bayLost (s u : State) (f : Face) (b : Nat) : Prop :=
  let action := (s.face f).config.lostAction
  ∀ x, s.bay? f b = some x →
    u.bay? f b = some (x.lostLink action) ∧
      (x.isolated = false → action = .isolate →
        (u.face f).line.carries b .hold) ∧
      u.presenceBare =
        s.presence.map fun r =>
          if r.face = f ∧ r.bay = b then
            { r with clearHold := r.clearHold.map (fun h => { h with suspended := true }), reported := false }
          else { r with reported := false }

/-- R166 to R169, R72 to R74, R173, R182: what the end of a response transaction leaves of the line, of AU's interleave and
of the bay or marker that has entered LOST, and what it does not touch. -/
def State.transactionEnded (s u : State) (f : Face) (t : Transaction) (o : TxOutcome) (data : List Byte) : Prop :=
  let l := (s.face f).line
  let l' := (u.face f).line
  (∀ a, 1 ≤ a → a ≤ 36 → l'.node a = if a = t.address then (l.node a).ended t o data s.now else l.node a) ∧
    (t.cls = .pass → ∀ r, l.passSlot = .inFlight r → l'.passSlot = .ended r o data) ∧
    ((l.node t.address).link = .linked → (((l.node t.address).ended t o data s.now).link = .marginal) →
      u.latched f .linkMarginal = true) ∧
    ((l.node t.address).losesLink t o = true →
      u.latched f .linkLost = true ∧
        (∀ k, markerAt? t.address = some k → (u.face f).au.readings.get k = none) ∧
        (t.address ≤ 32 → s.bayLost u f t.address)) ∧
    (t.cls = .list → t.inPass = true → ∀ p, l.running = some p →
      l.movedOn l' p ∧
        (p.entries.length ≤ l.position → p.discipline = .chain →
          (l.staged ≠ none → u.latched f .stageTaken = true) ∧
            (l.staged = none → l.starved = false → u.latched f .chainStarved = true))) ∧
    (t.cls ≠ .list ∨ t.inPass = false ∨ l.running = none →
      l'.position = l.position ∧ l'.running = l.running ∧ l'.staged = l.staged ∧ l'.starved = l.starved) ∧
    s.interleaved u f t.cls ∧
    (o ≠ .success ∨ t.function ≠ .status ∨ t.cls = .pass →
      u = { s with faces := u.faces, presence := u.presence } ∧
        ((l.node t.address).losesLink t o = false →
          u.presence = s.presence ∧ (u.face f).bays = (s.face f).bays ∧ (u.face f).berth = (s.face f).berth ∧
            (u.face f).au.readings = (s.face f).au.readings ∧ (u.face f).au.fusion = (s.face f).au.fusion)) ∧
    l'.enabled = l.enabled ∧ l'.rate = l.rate ∧ l'.stray = l.stray ∧
    (u.face f).config = (s.face f).config ∧ (u.face f).link = (s.face f).link ∧ (u.face f).wires = (s.face f).wires ∧
    (u.face f).popen = (s.face f).popen ∧ (u.face f).pclose = (s.face f).pclose ∧ (u.face f).pkey = (s.face f).pkey ∧
    (∀ g, g ≠ f → u.face g = s.face g) ∧
    u = { s with
          faces := u.faces, presence := u.presence, releases := u.releases, nextTag := u.nextTag
          profiles := u.profiles }

/-! ### Invariants -/

/-- R16, R18: the codes ascend, at most 16 profiles are enrolled, and the door-list lengths and the free pool count sum
to 512. -/
def DoorPoolKept (s : State) : Prop :=
  s.profiles.Pairwise (fun p q => p.code < q.code) ∧ s.profiles.length ≤ Config.profileCapacity ∧
    (s.profiles.map fun p => p.doors.length).sum + s.freePool = Config.doorPool

/-- The number of berths that name a profile. -/
def State.namedBy (s : State) (code : Nat) : Nat :=
  (allFaces.filter fun f => (s.face f).berth.profile == some code).length

/-- R24, R25, R27, R28: every reference count is the number of berths that name the profile; every profile that a berth
names is enrolled; a VACANT berth names none. -/
def ReferencesKept (s : State) : Prop :=
  s.profiles.Pairwise (fun p q => p.code < q.code) ∧ (∀ p ∈ s.profiles, p.refs = s.namedBy p.code) ∧
    ∀ f, ((s.face f).berth.state = .vacant → (s.face f).berth.profile = none) ∧
      ∀ c, (s.face f).berth.profile = some c → (s.profile? c).isSome = true

/-- R102: at most 48 records, one per face, bay and zone. -/
def PresenceListKept (s : State) : Prop :=
  s.presence.length ≤ Config.presenceCapacity ∧
    s.presence.Pairwise fun r q => ¬(r.face = q.face ∧ r.bay = q.bay ∧ r.zone = q.zone)

/-- R122, R123: at most 32 records, one per key, each under a tag of its own in 1 to 255; the next-tag value lies in 1
to 255. -/
def ReleaseListKept (s : State) : Prop :=
  s.releases.length ≤ Config.releaseCapacity ∧ s.releases.Pairwise (fun r q => r.key ≠ q.key ∧ r.tag ≠ q.tag) ∧
    (∀ r ∈ s.releases, 1 ≤ r.tag ∧ r.tag ≤ Config.tagMax) ∧ 1 ≤ s.nextTag ∧ s.nextTag ≤ Config.tagMax

/-- R188, R189: between events the port is IDLE with an empty buffer, or ANSWER_READY with an answer in it, and no
request is being worked on. -/
def PortKept (s : State) : Prop :=
  s.port.request = none ∧
    ((s.port.state = .idle ∧ s.port.answer = none) ∨ (s.port.state = .answerReady ∧ s.port.answer.isSome = true))

/-- R33: at most 4 answers wait on a train link. -/
def AnswersKept (s : State) : Prop := ∀ f, (s.face f).link.answers.length ≤ Config.answerCapacity

/-- R167, R168: a node record: the count lies in 0 to 31; the link state of a node not in LOST is the count's; a node not
in LOST holds a run of 0; a LOST node's run lies in 0 to 7. -/
def Node.kept (n : Node) : Prop :=
  n.errors ≤ Config.errorMax ∧
    match n.link with
    | .linked => n.errors < Config.marginalAt ∧ n.run = 0
    | .marginal => Config.marginalAt ≤ n.errors ∧ n.errors < Config.lostAt ∧ n.run = 0
    | .lost => Config.lostAt ≤ n.errors ∧ n.run < Config.recoveryRun

/-- R167: every node record of every face is kept. -/
def LinkHealthKept (s : State) : Prop := ∀ f, ∀ n ∈ (s.face f).line.nodes.toList, n.kept

/-- R9: the bays of a face: numbers in 1 to 32, numbers and centres strictly ascending, no two openings overlapping, and
each opening whole on the face. -/
def FaceState.baysKept (x : FaceState) : Prop :=
  x.bays.Pairwise (fun a b => a.num < b.num ∧ a.centre < b.centre ∧ openingsOverlap b.centre b.width a = false) ∧
    ∀ b ∈ x.bays, 1 ≤ b.num ∧ b.num ≤ Config.bayMax ∧ b.width ≤ 2 * b.centre ∧
      ∃ lf, x.config.lf = some lf ∧ 2 * b.centre + b.width ≤ 2 * lf

/-- R9 on every face. -/
def BaysKept (s : State) : Prop := ∀ f, (s.face f).baysKept

/-- R3 to R8: every field of a face configuration record lies in its range, and every stop mark on the face. -/
def FaceConfig.kept (c : FaceConfig) : Prop :=
  (∀ lf, c.lf = some lf → 20000 ≤ lf ∧ lf ≤ 250000) ∧
    (∀ m ∈ c.marks, ∃ lf, c.lf = some lf ∧ m ≤ lf) ∧
    (500 ≤ c.minPassage ∧ c.minPassage ≤ 1500) ∧ (50 ≤ c.tFine ∧ c.tFine ≤ 1000) ∧
    (c.tFine ≤ c.tCoarse ∧ c.tCoarse ≤ 3000) ∧ (20 ≤ c.agreement ∧ c.agreement ≤ 500) ∧
    (1 ≤ c.nMin ∧ c.nMin ≤ 4) ∧ (200 ≤ c.readingAge ∧ c.readingAge ≤ 5000) ∧
    (500 ≤ c.positionWait ∧ c.positionWait ≤ 10000) ∧ (300 ≤ c.unlockLimit ∧ c.unlockLimit ≤ 5000) ∧
    (1000 ≤ c.openLimit ∧ c.openLimit ≤ 10000) ∧ (1000 ≤ c.warning ∧ c.warning ≤ 8000) ∧
    (1000 ≤ c.closeLimit ∧ c.closeLimit ≤ 10000) ∧ (1 ≤ c.reopenLimit ∧ c.reopenLimit ≤ 5) ∧
    (100 ≤ c.clearHold ∧ c.clearHold ≤ 3000) ∧ (2000 ≤ c.entrapment ∧ c.entrapment ≤ 60000) ∧
    (1000 ≤ c.silence ∧ c.silence ≤ 30000) ∧ (5000 ≤ c.modeTransition ∧ c.modeTransition ≤ 120000) ∧
    c.turnaround ≤ 63 ∧ c.interleave ≤ 8

/-- The configuration record of every face is kept. -/
def SettingsKept (s : State) : Prop := ∀ f, (s.face f).config.kept

/-- R171, R172, R180: while a line is enabled, its running list is there and names every enrolled bay of the face, and so
does a staged list. -/
def CoverKept (s : State) : Prop := ∀ f, (s.face f).line.enabled = true → listsCover s f = true

/-- R162, R163: a transaction in flight with a response is one with a node, whose address lies in 1 to 36. -/
def Line.addressed (l : Line) : Prop := ∀ t, l.tx = some t → t.cls ≠ .command → 1 ≤ t.address ∧ t.address ≤ 36

/-- R162, R171, R178, R182, R184: a line carries one thing at a time: a transaction, a window still open after its outcome, or
a signal. The addresses in flight, in the lists and in a waiting pass request lie in 1 to 36. What a restart abandons is in
flight, and is in no pass slot. -/
def Line.kept (l : Line) : Prop :=
  (l.tx ≠ none → l.late = none ∧ l.signal = .none) ∧ (l.signal ≠ .none → l.late = none) ∧ l.addressed ∧
    (∀ p, l.running = some p ∨ l.staged = some p → ∀ e ∈ p.entries, 1 ≤ e.address ∧ e.address ≤ 36) ∧
    (∀ r, l.passSlot = .waiting r → 1 ≤ r.address ∧ r.address ≤ 36) ∧
    (l.abandoning = true → l.tx ≠ none ∧ ∀ r, l.passSlot ≠ .inFlight r)

/-- The line of every face is kept. -/
def LinesKept (s : State) : Prop := ∀ f, (s.face f).line.kept

/-- The berth states in which a snapshot is present (03, The berth record). -/
def BerthState.hasSnapshot : BerthState → Bool
  | .aligned | .openService | .closing | .secured => true
  | .vacant | .announced | .standing | .reposition => false

/-- R29: each optional field of a berth record is present in the states that the table of the record gives, and only
there. -/
def Berth.kept (x : Berth) : Prop :=
  x.train.isSome = (x.state != .vacant) ∧ x.profile.isSome = (x.state != .vacant) ∧
    x.dir.isSome = (x.state != .vacant) ∧ x.cars.isSome = (x.state != .vacant) ∧
    x.snapshot.isSome = x.state.hasSnapshot ∧ x.cause.isSome = (x.state == .reposition) ∧
    x.refusedError.isSome = (x.state == .reposition && x.cause != some .noPosition) ∧
    (x.positionWait.isSome → x.state = .standing) ∧
    (x.state = .vacant → x.standstill = false ∧ x.moved = false ∧ x.ht = none ∧ x.silence = none)

/-- R29 on every face. -/
def BerthsKept (s : State) : Prop := ∀ f, (s.face f).berth.kept

/-- R42, R43, R148: a mode is stored exactly in EVACUATION, it is another mode, and no request is pending there; a face
in STARTING or MAINTENANCE, or keeping either as its stored mode, holds a VACANT berth; while a berth is SECURED every bay
of its mask is CLOSED_LOCKED, and while it is CLOSING some bay is not. -/
def SecuredKept (s : State) : Prop :=
  ∀ f, (s.face f).fi.stored.isSome = ((s.face f).fi.mode == .evacuation) ∧
    (s.face f).fi.stored ≠ some .evacuation ∧
    ((s.face f).fi.mode = .evacuation → (s.face f).fi.request = none) ∧
    ((s.face f).fi.mode = .starting ∨ (s.face f).fi.mode = .maintenance ∨ (s.face f).fi.stored = some .starting ∨
        (s.face f).fi.stored = some .maintenance → (s.face f).berth.state = .vacant) ∧
    ((s.face f).berth.state = .secured → s.maskLocked f = true) ∧
    ((s.face f).berth.state = .closing → s.maskLocked f = false)

/-- R6, R86, R87: the reopen limit lies in 1 to 5, no bay's reopen count is above it, and a HELD_OPEN bay's count is the
limit. -/
def ReopensKept (s : State) : Prop :=
  ∀ f, 1 ≤ (s.face f).config.reopenLimit ∧ (s.face f).config.reopenLimit ≤ 5 ∧
    ∀ x ∈ (s.face f).bays, x.reopens ≤ (s.face f).config.reopenLimit ∧
      (x.state = .heldOpen → x.reopens = (s.face f).config.reopenLimit)

/-- R141, R142, R149: a face in STARTING, or keeping it as its stored mode, that has seen a pass end has a bay that the
census still waits for: once none is left, the census is over. Bay numbers ascend. -/
def CensusKept (s : State) : Prop :=
  ∀ f, (s.face f).bays.Pairwise (fun a b => a.num < b.num) ∧
    ((s.face f).fi.mode = .starting ∨ ((s.face f).fi.mode = .evacuation ∧ (s.face f).fi.stored = some .starting) →
      (s.face f).fi.censusPass = true →
      ∃ x ∈ (s.face f).bays, x.isolated = false ∧ x.state = .unknown ∧ ((s.face f).line.node x.num).link ≠ .lost)

/-- R153, R154: FI's copies of the first five proving conditions are those of the records, and proving is asserted
exactly while all six copies hold; bay numbers ascend. -/
def ProvingKept (s : State) : Prop :=
  ∀ f, (s.face f).bays.Pairwise (fun a b => a.num < b.num) ∧
    (s.face f).fi.conditions.mode = (s.face f).fi.mode.proves ∧ (s.face f).fi.conditions.secure = s.allSecure f ∧
    (s.face f).fi.conditions.noPresence = !s.facePresence f ∧
    (s.face f).fi.conditions.noRelease = !s.releaseStanding f ∧
    (s.face f).fi.conditions.line = s.lineProves f ∧ (s.face f).fi.proving = (s.face f).fi.conditions.all

end Sys2Proof.Machine
end

