-- ==== Sys2Proof/Certificates/Slice0/Obligations.lean ====
section
/-! DEFINITION. The statements for the provers. -/

open Sys2Proof Sys2Proof.Machine

/-! ### Steps, the idle part, supply and resets -/

/-- A step of a state with a command at the front of its queue is that command's meaning on the state with the rest of
the queue. -/
def Obligations.StepRunsTheFrontCommand : Prop :=
  ∀ (c : Instr) (rest : List Instr) (s : State),
    step { s with pending := c :: rest } = exec c { s with pending := rest }

/-- The model's choice (log entries 1, 17, 34): with no command waiting, a running part lets one millisecond pass, which
changes the time base, what is kept of the inputs, the receivers, the transmitters and the queue, and nothing else: a
receiver only where characters wait at it, a transmitter only where it sends, and a line also where a restart has a
transaction to abandon (R184). Without supply, and while POR is held low, nothing changes. -/
def Obligations.IdleMillisecond : Prop :=
  ∀ s : State, s.pending = [] →
    (s.powered = false → step s = .next s) ∧
      (s.powered = true →
        ∃ t, step s = .next t ∧ t.now = s.now + 1#32 ∧
          (∀ f, t.face f =
            { s.face f with
              pkey := (t.face f).pkey, popen := (t.face f).popen, pclose := (t.face f).pclose
              tlrx := (t.face f).tlrx, tltx := (t.face f).tltx, blrx := (t.face f).blrx
              link := { (s.face f).link with receiving := (t.face f).link.receiving }
              line :=
                if (s.face f).line.abandoning = true then (t.face f).line
                else { (s.face f).line with tx := (t.face f).line.tx, late := (t.face f).line.late } }) ∧
          (∀ f, (s.face f).tlrx = [] → (t.face f).tlrx = [] ∧ (t.face f).link = (s.face f).link) ∧
          (∀ f, (s.face f).blrx = [] → (t.face f).blrx = [] ∧
            ((s.face f).line.abandoning = false → (t.face f).line = (s.face f).line)) ∧
          (∀ f, (s.face f).onTltx = none → (t.face f).tltx = (s.face f).tltx) ∧
          t = { s with now := t.now, evac := t.evac, faces := t.faces, pending := t.pending })

/-- R201: a pin after one sample: the run of samples at the other level than the one taken is longer by 1, or 0. -/
def sampledOnce (p : InputPin) : InputPin := ⟨p.pin, p.taken, if p.pin = p.taken then 0 else p.run + 1⟩

/-- R201: a button after one sample: let go for 20 samples, its level is taken and that is all. -/
def buttonSampled (p : InputPin) : InputPin :=
  if p.pin = false ∧ p.taken = true ∧ 19 ≤ p.run then ⟨false, false, 0⟩ else sampledOnce p

/-- R201 with the model's idle millisecond (log entry 1): a change of an input comes into the queue exactly at the sample
that completes 20 in a row at the new level; a button brings one for a press only. A sample at the other level makes the run
longer by 1 and one at the level taken ends it; the level taken stays until the change is acted on, but for a button let go,
whose level is taken at the 20th sample. -/
def Obligations.InputsChangeAtTheTwentiethSample : Prop :=
  ∀ (s : State) (f : Face), s.powered = true → s.pending = [] →
    ∃ t, step s = .next t ∧
      (∀ on, Instr.pkeyChange f on ∈ t.pending ↔
        on = (s.face f).pkey.pin ∧ (s.face f).pkey.pin ≠ (s.face f).pkey.taken ∧ 19 ≤ (s.face f).pkey.run) ∧
      (Instr.evacAsserted ∈ t.pending ↔ s.evac.pin = true ∧ s.evac.taken = false ∧ 19 ≤ s.evac.run) ∧
      (Instr.evacDeasserted ∈ t.pending ↔ s.evac.pin = false ∧ s.evac.taken = true ∧ 19 ≤ s.evac.run) ∧
      (Instr.popenPress f ∈ t.pending ↔
        (s.face f).popen.pin = true ∧ (s.face f).popen.taken = false ∧ 19 ≤ (s.face f).popen.run) ∧
      (Instr.pclosePress f ∈ t.pending ↔
        (s.face f).pclose.pin = true ∧ (s.face f).pclose.taken = false ∧ 19 ≤ (s.face f).pclose.run) ∧
      t.evac = sampledOnce s.evac ∧ (t.face f).pkey = sampledOnce (s.face f).pkey ∧
      (t.face f).popen = buttonSampled (s.face f).popen ∧ (t.face f).pclose = buttonSampled (s.face f).pclose

/-- The model's idle millisecond (log entry 1): the expiries that come into the queue are exactly those of the timers
that are armed, not suspended, and reached at the new millisecond; an answer is sent when the last stop bit of its
characters has gone, 11 bit times to a character and 9.6 bit times to a millisecond (R200). -/
def Obligations.DueTimersComeIntoTheQueue : Prop :=
  ∀ (s : State) (f : Face), s.powered = true → s.pending = [] →
    ∃ t, step s = .next t ∧
      (Instr.positionWaitExpiry f ∈ t.pending ↔ ∃ d, (s.face f).berth.positionWait = some d ∧ t.reached d = true) ∧
      (Instr.silenceDeadlineExpiry f ∈ t.pending ↔ ∃ d, (s.face f).berth.silence = some d ∧ t.reached d = true) ∧
      (Instr.modeTransitionExpiry f ∈ t.pending ↔ ∃ r, (s.face f).fi.request = some r ∧ t.reached r.due = true) ∧
      (∀ b, Instr.unlockDeadlineExpiry f b ∈ t.pending ↔ ∃ x ∈ (s.face f).bays, x.num = b ∧
        ∃ d, x.deadline = some ⟨.unlock, some d, false⟩ ∧ t.reached d = true) ∧
      (∀ b, Instr.openDeadlineExpiry f b ∈ t.pending ↔ ∃ x ∈ (s.face f).bays, x.num = b ∧
        ∃ d, x.deadline = some ⟨.open, some d, false⟩ ∧ t.reached d = true) ∧
      (∀ b, Instr.closeDeadlineExpiry f b ∈ t.pending ↔ ∃ x ∈ (s.face f).bays, x.num = b ∧
        ∃ d, x.deadline = some ⟨.close, some d, false⟩ ∧ t.reached d = true) ∧
      (∀ b, Instr.warningDeadlineExpiry f b ∈ t.pending ↔ ∃ x ∈ (s.face f).bays, x.num = b ∧
        ∃ d, x.deadline = some ⟨.warning, some d, false⟩ ∧ t.reached d = true) ∧
      (∀ b z, Instr.clearHoldExpiry f b z ∈ t.pending ↔ ∃ r ∈ s.presence, r.face = f ∧ r.bay = b ∧ r.zone = z ∧
        r.state = .clearing ∧ ∃ d, r.clearHold = some ⟨d, false⟩ ∧ t.reached d = true) ∧
      (Instr.telegramGapExpiry f ∈ t.pending ↔ ∃ p, (s.face f).link.receiving = some p ∧ 50 < t.age p.lastAt) ∧
      (Instr.trainAnswerSent f ∈ t.pending ↔ (t.face f).tltx.cut = none ∧
        ∃ a rest, (s.face f).link.answers = a :: rest ∧ 110 * a.length ≤ (t.face f).tltx.elapsed)

/-- Log entry 5, from R201: supply loss opens every proving loop and leaves the records; without supply no command but
POWER_ON_RESET changes anything. -/
def Obligations.SupplyLossOpensTheLoops : Prop :=
  ∀ s : State,
    (∃ t, exec .supplyLoss s = .next t ∧ t = { s with powered := false } ∧
      (∀ f, t.prove f = false) ∧ t.ready = false ∧ t.attn = false ∧ ∀ f, t.blde f = false) ∧
      (s.powered = false → ∀ c, (∀ pins, c ≠ .powerOnReset pins) → exec c s = .next s)

/-- R1, R16, R30, R56, R103, R124, R155, R184, R195, R201: power-on reset. While POR is held low (log entry 5) PROVE does
not conduct, READY, ATTN and BLDE are low, TLTX and BLTX idle high, SVDO is not driven, and no command but POWER_ON_RESET
changes anything. EVAC asserted at its end is taken as a change to asserted (R130, R148): every face is in EVACUATION with
stored mode STARTING, one STATION_EVAC record stands, and MODE_DONE and RELEASE_NEW are latched. The rate in force is log
entry 7's; the queue stays. -/
def Obligations.PowerOnResetClearsEverything : Prop :=
  (∀ s h : State, h = holdReset s →
    h.resetHeld = true ∧ (∀ f, h.prove f = false ∧ h.blde f = false ∧ h.tltx f = true ∧ ∀ k, h.bltx f k = true) ∧
      h.ready = false ∧ h.attn = false ∧ h.svdoDriven = false ∧ h.svdo = none ∧
      (∀ c, (∀ pins, c ≠ .powerOnReset pins) → c ≠ .supplyLoss → exec c h = .next h) ∧
      ∀ pins, exec (.powerOnReset pins) h = exec (.powerOnReset pins) s) ∧
  ∀ (pins : PinLevels) (s : State),
    ∃ t, exec (.powerOnReset pins) s = .next t ∧ t.powered = true ∧ t.resetHeld = false ∧ t.now = 0#32 ∧ t.profiles = [] ∧
      t.freePool = 512 ∧ t.presence = [] ∧ t.partAttn = false ∧ t.port.state = .idle ∧ t.port.request = none ∧
      t.port.answer = none ∧ t.port.overrun = false ∧ t.port.exchange = none ∧ t.port.begun = none ∧
      t.evac = .start pins.evac ∧ t.pending = s.pending ∧
      (∀ f, (t.face f).config = .powerOn ∧ (t.face f).bays = [] ∧ (t.face f).berth = .powerOn ∧
        (t.face f).link = ⟨none, []⟩ ∧ (t.face f).tltx = ⟨0, none⟩ ∧ (t.face f).tlrx = [] ∧ (t.face f).blrx = [] ∧
        (t.face f).au = .powerOn ∧ (t.face f).line = .powerOn ∧
        (t.face f).releaseOverflow = false ∧ (t.face f).pkey = .start (pins.pkey.get f)) ∧
      (pins.evac = false → t.releases = [] ∧ t.nextTag = 1 ∧
        ∀ f, (t.face f).attn = 0#24 ∧
          (t.face f).fi =
            { mode := .starting, stored := none, request := none, censusPass := false, keyOn := pins.pkey.get f
              proving := false, conditions := ⟨false, true, true, true, false, true⟩ }) ∧
      (pins.evac = true →
        t.releases = [{ tag := 1, key := .stationEvac, active := true, onset := 0#32, quiescentSince := none }] ∧
          t.nextTag = 2 ∧
          ∀ f, (t.face f).attn = (Attn.modeDone.bit ||| Attn.releaseNew.bit) ∧
            (t.face f).fi =
              { mode := .evacuation, stored := some .starting, request := none, censusPass := false
                keyOn := pins.pkey.get f, proving := false, conditions := ⟨false, true, true, false, false, true⟩ })

/-- What a restart leaves of a face but for its mode and its attention set (R15, R30, R56, R100, R120, R156, R184). An
answer whose transmission has begun is cut at the end of the character in progress, the characters being 110 tenths of a
bit time long (R200, log entry 17). That an ENDED pass result is gone is read from R182 (log entry 26). A signal going out
goes on, a break pending is still to be sent, and an enabled line sends a preamble, or, after what is still to be sent, owes
one (R178, R184; how a break that was found pending is kept is log entry 23's choice); a disabled line sends none. A
transaction not yet decided is abandoned at once, or, a character being in progress, stays until that ends (R184; which
character that is, is log entry 34's choice). -/
def faceCleared (now : Time) (x y : FaceState) : Prop :=
  y.config = x.config ∧ y.bays = x.bays.map Bay.restarted ∧ y.berth = .powerOn ∧ y.link = ⟨none, []⟩ ∧
    y.tlrx = x.tlrx ∧ y.blrx = x.blrx ∧
    (x.tltx.cut ≠ none → y.tltx = x.tltx) ∧
    (x.tltx.cut = none → ∀ a rest, x.link.answers = a :: rest →
      y.tltx = ⟨x.tltx.elapsed, some (a.take (x.tltx.elapsed / 110 + 1))⟩) ∧
    (x.tltx.cut = none → x.link.answers = [] → y.tltx = ⟨0, none⟩) ∧
    y.au = .powerOn ∧ y.popen = x.popen ∧ y.pclose = x.pclose ∧ y.pkey = x.pkey ∧ y.fi.request = none ∧
    y.fi.censusPass = false ∧ y.fi.keyOn = x.fi.keyOn ∧ y.fi.proving = false ∧ y.line.enabled = x.line.enabled ∧
    y.line.rate = x.line.rate ∧ y.line.running = x.line.running ∧ y.line.staged = x.line.staged ∧
    y.line.frozen = false ∧ y.line.stopping = false ∧ y.line.breakPending = false ∧ y.line.starved = false ∧
    y.line.position = x.line.position ∧ y.line.breakOwed = (x.line.breakPending || x.line.breakOwed) ∧
    (x.line.enabled = false → y.line.signal = x.line.signal ∧ y.line.preambleDue = false) ∧
    (x.line.enabled = true →
      (x.line.signal = .none → x.line.breakPending = false → x.line.breakOwed = false → ¬x.waitsToAbandon →
        y.line.signal = .preamble ∧ y.line.preambleDue = false) ∧
      (x.line.signal ≠ .none ∨ x.line.breakPending = true ∨ x.line.breakOwed = true ∨ x.waitsToAbandon →
        y.line.signal = x.line.signal ∧ y.line.preambleDue = true)) ∧
    (x.waitsToAbandon → y.line.tx = x.line.tx ∧ y.line.abandoning = true ∧
      ∀ a, (y.line.node a).last = (x.line.node a).last) ∧
    (¬x.waitsToAbandon → y.line.tx = none ∧ y.line.abandoning = false ∧
      ∀ a, 1 ≤ a → a ≤ 36 →
        ((∃ t, x.line.tx = some t ∧ t.cls ≠ .command ∧ t.address = a) →
          (y.line.node a).last = some ⟨.abandoned, now⟩) ∧
        ((∀ t, x.line.tx = some t → t.cls = .command ∨ t.address ≠ a) →
          (y.line.node a).last = (x.line.node a).last)) ∧
    y.line.late = none ∧ y.line.queue = [] ∧ y.line.rotation = [.marker, .list, .pass] ∧
    y.line.stray = 0 ∧
    y.line.passSlot =
      (match x.line.passSlot with
        | .waiting r | .inFlight r => .ended r .abandoned []
        | .empty | .ended _ _ _ => .empty) ∧
    ∀ a, (y.line.node a).errors = 0 ∧ (y.line.node a).link = .linked ∧ (y.line.node a).run = 0 ∧
      (y.line.node a).identity = (x.line.node a).identity

/-- What a restart leaves of a face, EVAC not asserted (R138, R156). -/
def faceAfterRestart (now : Time) (x y : FaceState) : Prop :=
  faceCleared now x y ∧ y.releaseOverflow = false ∧ y.attn = 0#24 ∧ y.fi.mode = .starting ∧ y.fi.stored = none

/-- What a restart leaves of a face, EVAC asserted (R156, R148): the attention set holds MODE_DONE, and, as the station
record or the mark is made afresh, one kind besides (R138). -/
def faceInEvacuation (now : Time) (x y : FaceState) (besides : BitVec 24) : Prop :=
  faceCleared now x y ∧ y.attn = (Attn.modeDone.bit ||| besides) ∧ y.fi.mode = .evacuation ∧ y.fi.stored = some .starting

/-- R138, R156, R157, R195: RESTART_FACE: the face is restarted, its records leave both lists, its profile reference is
released, RESTARTED is latched, and every other face, the next-tag value and the free pool are as before. EVAC asserted,
the face is besides in EVACUATION with stored mode STARTING; where the list holds no STATION_EVAC record, one is created at
its tail, RELEASE_NEW is latched in every face's set and an opening release covers every face, or, the list holding 32
records, the mark of every face is set and RELEASE_OVERFLOW latched. A signal going out and a break pending are still sent
whole, and an enabled line sends or owes a preamble (how the break is kept: log entry 23; which character a transaction in
flight ends with: log entry 34). That a transaction in flight with a response has its address in 1 to 36 is an invariant of
the line. -/
def Obligations.RestartFaceRestartsOneFace : Prop :=
  ∀ (s : State) (cls : Byte) (key : Key) (f : Face) (presence : List Presence) (releases : List Release),
    s.takesRequests → faceOf key.k1 = some f → presence = s.presence.filter (fun r => r.face != f) →
    releases = s.releases.filter (fun r => r.key.face? != some f) → (s.face f).line.addressed →
    (s.evac.taken = false ∨ (s.releaseOf .stationEvac).isSome = true →
      ∃ t, Answers (.restartFace cls key []) s .done [] t ∧
        (s.evac.taken = false → faceAfterRestart s.now (s.face f) (t.face f)) ∧
        (s.evac.taken = true →
          faceInEvacuation s.now (s.face f) (t.face f) 0#24 ∧ (t.face f).releaseOverflow = false) ∧
        (∀ g, g ≠ f → t.face g = s.face g) ∧
        t = { releaseReference f s with partAttn := true, presence := presence, releases := releases, faces := t.faces }) ∧
    (s.evac.taken = true → s.releaseOf .stationEvac = none →
      ∃ t, Answers (.restartFace cls key []) s .done [] t ∧ t.partAttn = true ∧ t.profiles = (releaseReference f s).profiles ∧
        t.presenceBare = presence.map Presence.bare ∧
        (releases.length < 32 →
          faceInEvacuation s.now (s.face f) (t.face f) Attn.releaseNew.bit ∧ (t.face f).releaseOverflow = false ∧
            (∃ r, t.releases = releases ++ [r] ∧ r.key = .stationEvac ∧ r.active = true ∧ r.onset = s.now ∧
              r.quiescentSince = none) ∧
            ∀ g, t.latched g .releaseNew = true ∧ t.openingRelease g = true) ∧
        (32 ≤ releases.length →
          faceInEvacuation s.now (s.face f) (t.face f) Attn.releaseOverflow.bit ∧ t.releases = releases ∧
            t.nextTag = s.nextTag ∧
            ∀ g, (t.face g).releaseOverflow = true ∧ t.latched g .releaseOverflow = true))

/-- R28, R138, R156, R195: RESTART_PART: both lists are empty and every reference count is 0. EVAC not asserted, every
face is restarted; EVAC asserted, every face is besides in EVACUATION with stored mode STARTING, its cleared set holds
MODE_DONE and RELEASE_NEW, its mark is clear, and a fresh STATION_EVAC record stands alone under the next tag. Each line is
left as by RESTART_FACE (log entries 23, 34). That a transaction in flight with a response has its address in 1 to 36 is an
invariant of the line. -/
def Obligations.RestartPartRestartsEveryFace : Prop :=
  ∀ (s : State) (cls : Byte) (key : Key), s.takesRequests → (∀ f, (s.face f).line.addressed) →
    (s.evac.taken = false →
      ∃ t, Answers (.restartPart cls key []) s .done [] t ∧ (∀ f, faceAfterRestart s.now (s.face f) (t.face f)) ∧
        t = { s with
              partAttn := true, presence := [], releases := []
              profiles := s.profiles.map (fun p => { p with refs := 0 }), faces := t.faces }) ∧
    (s.evac.taken = true →
      ∃ t, Answers (.restartPart cls key []) s .done [] t ∧ t.presence = [] ∧ t.partAttn = true ∧
        t.profiles = s.profiles.map (fun p => { p with refs := 0 }) ∧
        t.releases =
          [{ tag := s.nextTag, key := .stationEvac, active := true, onset := s.now, quiescentSince := none }] ∧
        ∀ f, faceInEvacuation s.now (s.face f) (t.face f) Attn.releaseNew.bit ∧ (t.face f).releaseOverflow = false)

/-! ### The supervisory port and the formats -/

/-- R188: each supervisory request taken in IDLE receives exactly one answer, with its kind, class and key; the port is
ANSWER_READY, nothing is being worked on, and the overrun mark is as it was. RESTART_FACE of a face and RESTART_PART, in every
mode and state, are taken and answered DONE, with RESTARTED latched and the berths VACANT (R156, R195). -/
def Obligations.EachRequestReceivesOneAnswer : Prop :=
  ∀ (i : Instr) (q : Request) (s : State), requestOf i = some q → s.takesRequests →
    (∀ kind cls key sel data, i = .unadmittedRequest kind cls key sel data →
      1 ≤ kind.toNat ∧ kind.toNat ≤ 5 ∧ admitted kind cls sel = false) →
    (∃ t code data, exec i s = .next t ∧ t.port = s.answered q code data) ∧
      (∀ cls key, i = .restartPart cls key [] →
        ∃ t, Answers i s .done [] t ∧ t.partAttn = true ∧ t.presence = [] ∧ ∀ f, (t.face f).berth = .powerOn) ∧
      ∀ cls key f, i = .restartFace cls key [] → faceOf key.k1 = some f →
        ∃ t, Answers i s .done [] t ∧ t.partAttn = true ∧ (t.face f).berth = .powerOn ∧
          ∀ r ∈ t.presence, r.face ≠ f

/-- R190: a request frame taken while the port is not IDLE is discarded: nothing but the overrun mark and what was sent
on SVDO changes. -/
def Obligations.BusyPortDiscardsRequests : Prop :=
  ∀ s : State, s.powered = true → s.port.state ≠ .idle →
    (∀ i q, requestOf i = some q →
      (∀ kind cls key sel data, i = .unadmittedRequest kind cls key sel data →
        1 ≤ kind.toNat ∧ kind.toNat ≤ 5 ∧ admitted kind cls sel = false) →
      exec i s = .next { s with port := { s.port with overrun := true, svdo := idleChars s q.length, begun := none } }) ∧
    (∀ cs, cs ≠ [] → charAt cs 1 ≠ 6#8 →
      exec (.overrunDiscard cs) s =
        .next { s with
          port := { s.port with overrun := true, svdo := idleChars s cs.length, begun := none } }) ∧
    ∀ cs, malformed cs = true →
      exec (.malformedFrame cs) s =
        .next { s with
          port := { s.port with overrun := true, svdo := idleChars s cs.length, begun := none } }

/-- R186, R189: a FETCH acts by the port state at the fall of SVCS. One that clocks out the whole answer then waiting empties
the buffer and clears the mark; a shorter one, and one without an answer waiting then, changes only what was sent on SVDO.
That an exchange sent as a command of its own begins when it is taken is the model's choice (log entry 31). That the
characters of a longer FETCH after the frame are all ones is the model's choice (log entry 30). -/
def Obligations.FetchTakesAWholeAnswer : Prop :=
  ∀ (s : State) (n : Nat) (began : ExchangeStart), s.powered = true → 1 ≤ n → began = s.started →
    (s.port.begun = none →
      began.status = statusChar s ∧
        (∀ a, s.port.state = .answerReady → s.port.answer = some a → began.frame = some (a.frame s.port.overrun)) ∧
        (s.port.state ≠ .answerReady → began.frame = none)) ∧
    (∀ e, s.port.begun = some e → began = e) ∧
    (∀ chars, began.frame = some chars →
      (1 + chars.length ≤ n →
        exec (.fetch n) s =
          .next { s with
            port := { s.port with
                      state := .idle, answer := none, overrun := false, begun := none
                      svdo := began.status :: chars ++ List.replicate (n - 1 - chars.length) 255#8 } }) ∧
        (n < 1 + chars.length →
          exec (.fetch n) s =
            .next { s with
              port := { s.port with svdo := (began.status :: chars).take n, begun := none } })) ∧
    (began.frame = none →
      exec (.fetch n) s =
        .next { s with
          port := { s.port with
                    svdo := began.status :: List.replicate (n - 1) 255#8, begun := none } })

/-- R187, R191, R192, R171: a malformed frame taken in IDLE is answered BAD_REQUEST with its first character as the kind
(of a frame that holds them, its class and key come with it; what a shorter one lacks are free values, and that the model's
own count of them goes on by 6 is the model's choice, log entry 11); so is a well-formed request that nobody admits, but for
one of class POLL_LIST whose face is none of F0 to F3, which is answered NO_RECORD. -/
def Obligations.PortAnswersBadFrames : Prop :=
  ∀ s : State, s.takesRequests →
    (∀ cs : List Byte, malformed cs = true →
      ∃ cls key, exec (.malformedFrame cs) s =
          .next { s with
            port := { s.port with
                      state := .answerReady, request := none, answer := some ⟨charAt cs 1, cls, key, .badRequest, []⟩
                      svdo := idleChars s cs.length, begun := none }
            freeCount := s.freeCount + 6 } ∧
        (5 ≤ cs.length → cls = charAt cs 2 ∧ key = ⟨charAt cs 3, charAt cs 4, charAt cs 5⟩)) ∧
    ∀ (kind cls : Byte) (key : Key) (sel : Byte) (data : List Byte),
      1 ≤ kind.toNat → kind.toNat ≤ 5 → admitted kind cls sel = false →
      Answers (.unadmittedRequest kind cls key sel data) s
        (if cls = 7#8 ∧ kind ≠ 5#8 ∧ faceOf key.k1 = none then .noRecord else .badRequest) [] s

/-- R186, R187, R191, R192: the frame of every supervisory command is judged at an IDLE port as that command, and at a port
that is not IDLE as a frame to discard. An exchange begins at the fall of SVCS; each rising edge of SVCK takes a bit of the
characters, most significant first; bits after the last whole character are discarded; at the rise of SVCS the characters
are judged by the port state and the command they are is the next to be taken, and no whole character is none. After each
falling edge SVDO presents the next bit of the status character, then of the answer frame in a FETCH and of all ones in any
other exchange. What waits in the queue comes before an edge of SVCS, so the port state and the answer that an exchange
meets are those it has left (log entry 31). All ones after an answer frame are the model's choice (log entry 30). -/
def Obligations.RequestFramesSpellTheirCommands : Prop :=
  (∀ s : State,
    (s.pending = [] → s.caughtUp = s) ∧
      ∀ c rest t, s.pending = c :: rest → step s = .next t → t.pending = rest ∧ s.caughtUp = t.caughtUp) ∧
  (∀ (s u : State) (cs : List Byte) (rest bits : List Bool), u = s.caughtUp → u.powered = true → u.port.exchange = none →
    rest.length < 8 → bits = (cs.map portBits).flatten ++ rest →
    (cs = [] → (s.svcsFalls.clocks bits).svcsRises = u) ∧
      (cs ≠ [] → ∃ c, judgeExchange (decide (u.port.state = .idle)) cs = some c ∧
        (s.svcsFalls.clocks bits).svcsRises =
          { u with port := { u.port with begun := some (exchangeStart u) }, pending := [c] })) ∧
  (∀ (s u : State) (bits : List Bool) (sent : List Byte) (i j : Nat) (v : Byte), u = s.caughtUp → u.powered = true →
    u.port.exchange = none → bits.length = 8 * i + j + 1 → j < 8 →
    sent = (exchangeStart u).status ::
      (if (wholeChars bits).head? = some 6#8 then (exchangeStart u).frame.getD [] else []) →
    v = (sent[i]?).getD 255#8 →
    (s.svcsFalls.clocks bits).svdoDriven = true ∧ (s.svcsFalls.clocks bits).svdo = some (v.getLsbD (7 - j)) ∧
      u.svdoDriven = false ∧ u.svdo = none) ∧
  ∀ (i : Instr) (q : Request), requestOf i = some q → q.data.length ≤ 1024 →
    (∀ kind cls key sel data, i = .unadmittedRequest kind cls key sel data →
      1 ≤ kind.toNat ∧ kind.toNat ≤ 5 ∧ admitted kind cls sel = false) →
    judgeExchange true q.frame = some i ∧ judgeExchange false q.frame = some (.overrunDiscard q.frame)

/-- R32, R199: the values of a telegram hold one with no meaning in its coding: 128 or more after the opening, or none of 1
and 2 in the direction, the standstill, the position flag or the on/off field. -/
def meaningless (values : List Byte) : Prop :=
  (∃ v ∈ values.drop 1, 128 ≤ v.toNat) ∨
    ∃ kind length i v, (kind, length, i) ∈ [(1#8, 10, 7), (2#8, 8, 2), (2#8, 8, 3), (5#8, 4, 2)] ∧
      values[1]? = some kind ∧ values.length = length ∧ values[i]? = some v ∧ v ≠ 1#8 ∧ v ≠ 2#8

/-- R32, R199: the characters of every telegram, with every value its fields can carry, are collected one by one and judged
as that telegram with its last; a character with a fault, a value with no meaning in its coding, or a sum that is not 0
modulo 128, makes it corrupt. On the wire
a character is 11 bits with even parity, and TLTX carries the answer being sent bit by bit and idles high (log entry
17). -/
def Obligations.TelegramsSpellTheirCommands : Prop :=
  (∀ (f : Face) (i : Instr) (cs : List Byte), telegramOf i = some cs → commandFace i = some f → i.wellFormed = true →
    judgeTelegram f (cs.map cleanChar) = i) ∧
    (∀ (f : Face) (cs : List TrainChar),
      (∃ c ∈ cs, c.parityOk = false ∨ c.stopBit = false) ∨ charSum (cs.map TrainChar.value) % 128 ≠ 0 ∨
          meaningless (cs.map TrainChar.value) →
        judgeTelegram f cs = .corruptTelegram f .judged) ∧
    (∀ (f : Face) (i : Instr) (cs : List Byte) (before after : List TrainChar) (c : TrainChar) (at_ now : Time),
      telegramOf i = some cs → commandFace i = some f → i.wellFormed = true →
      cs.map cleanChar = before ++ c :: after →
      receiveChar f (if before = [] then none else some ⟨before, at_⟩) c now =
        if after = [] then (none, some i) else (some ⟨before ++ [c], now⟩, none)) ∧
    (∀ v : Byte, (trainCharBits v).length = 11 ∧ readTrainChar (trainCharBits v) = ⟨v, true, true⟩) ∧
    ∀ (s : State) (f : Face), s.powered = true →
      ((s.face f).tltx.cut = none → (s.face f).link.answers = [] → s.tltx f = true) ∧
      ∀ (a : List Byte) (rest : List (List Byte)), (s.face f).tltx.cut = none → (s.face f).link.answers = a :: rest →
        (11 * a.length ≤ (s.face f).tltx.elapsed / 10 → s.tltx f = true) ∧
        ∀ i j v b, a[i]? = some v → (trainCharBits v)[j]? = some b → (s.face f).tltx.elapsed / 10 = 11 * i + j →
          s.tltx f = b

/-! ### The configuration store and the profile table -/

/-- R1, R9, R23, R117, R137, R140, R170, R171: each lookup is answered with the record it names, field by field in the
order of its table (log entry 12; a profile in the order of R23, log entry 33; the items of a bay that no rule orders, log
entry 35), or NO_RECORD where there is none, and changes nothing. -/
def Obligations.LookupsChangeNothing : Prop :=
  ∀ (s : State) (key : Key), s.takesRequests →
    (∀ f, faceOf key.k1 = some f →
      Answers (.lookupFace key []) s .done (s.face f).config.encode s ∧
        Answers (.lookupFaceMode key []) s .done (interlockData (s.face f)) s ∧
        Answers (.lookupPollList key []) s .done (pollListData (s.face f).line) s ∧
        (∀ x, s.bay? f key.k2.toNat = some x → Answers (.lookupBay key []) s .done (bayData x) s) ∧
        (s.bay? f key.k2.toNat = none → Answers (.lookupBay key []) s .noRecord [] s) ∧
        (∀ z r, zoneOf key.k3 = some z → s.presenceAt f key.k2.toNat z = some r →
          Answers (.lookupPresence key []) s .done (presenceData s r) s) ∧
        (zoneOf key.k3 = none ∨ (∃ z, zoneOf key.k3 = some z ∧ s.presenceAt f key.k2.toNat z = none) →
          Answers (.lookupPresence key []) s .noRecord [] s) ∧
        (1 ≤ key.k2.toNat ∧ key.k2.toNat ≤ 36 →
          Answers (.lookupNode key []) s .done (nodeData s f key.k2.toNat) s) ∧
        (36 < key.k2.toNat → Answers (.lookupNode key []) s .noRecord [] s)) ∧
    (∀ p, s.profile? key.k1.toNat = some p → Answers (.lookupProfile key []) s .done (profileData p) s) ∧
    (s.profile? key.k1.toNat = none → Answers (.lookupProfile key []) s .noRecord [] s) ∧
    Answers (.lookupProfileTable key []) s .done (profileTableData s) s ∧
    Answers (.lookupPresenceList key []) s .done (presenceListData s) s ∧
    (∀ r, s.releaseTagged key.k1.toNat = some r → Answers (.lookupRelease key []) s .done (releaseData s r) s) ∧
    (s.releaseTagged key.k1.toNat = none → Answers (.lookupRelease key []) s .noRecord [] s) ∧
    Answers (.lookupReleaseList key []) s .done (releaseListData s) s

/-- R29, R165, R194: three lookups clear what they tell, once the answer is formed, and nothing else: LOOKUP BERTH the
two counters of the berth, LOOKUP NODE of address 0 the stray counter, LOOKUP SUMMARY all five attention sets. The
characters of the answers are the model's layout (log entry 12). -/
def Obligations.LookupsClearWhatTheyTell : Prop :=
  (∀ (s : State) (key : Key) (f : Face), s.takesRequests → faceOf key.k1 = some f →
     Answers (.lookupBerth key []) s .done (s.face f).berth.encode
         (s.modFace f fun x : FaceState => { x with berth := { x.berth with corrupt := 0, dropped := 0 } }) ∧
       (key.k2.toNat = 0 →
         Answers (.lookupNode key []) s .done (lineData (s.face f).line)
           (s.modFace f fun x : FaceState => { x with line := { x.line with stray := 0 } }))) ∧
  ∀ (s : State) (key : Key), s.takesRequests →
    ∃ t, Answers (.lookupSummary key []) s .done
        ((allFaces.map fun f => attnSet (s.face f).attn).flatten ++ [if s.partAttn then 1#8 else 0#8] ++
          (allFaces.map fun f => [chr (s.face f).fi.mode.code, chr (s.face f).berth.state.code,
            if (s.face f).fi.proving then 0#8 else 1#8]).flatten) t ∧
      t.partAttn = false ∧ (∀ f, t.face f = { s.face f with attn := 0#24 }) ∧
      t = { s with partAttn := false, faces := t.faces, port := t.port } ∧ t.attn = false

/-- R191, R192, R197 and the owners' rules: a request whose key names a face outside F0 to F3 is answered NO_RECORD; one
whose face is right and whose data its selector or its order does not ask for in that length and coding is answered
BAD_REQUEST (log entry 9: the coding is judged right after the key and the selector). Neither changes anything. -/
def Obligations.BadKeysAndBadCodingsAreRefused : Prop :=
  ∀ (i : Instr) (q : Request) (s : State), requestOf i = some q → s.takesRequests →
    (∀ k, faceKey i = some k → faceOf k.k1 = none → Answers i s .noRecord [] s) ∧
      ((∀ k, faceKey i = some k → (faceOf k.k1).isSome = true) → coded i = false → Answers i s .badRequest [] s)

/-- R2, R5 to R8: AMEND FACE of a clamped setting: a value below its range stores the lower end, one above it the upper
end, any other value itself; the answer carries the value stored, CLAMPED where it differs. The reopen limit is refused
IN_USE while a bay's reopen count is above 0. Nothing else changes but AU's MARKER request, compared with the new K. -/
def Obligations.AmendFaceClampsSettings : Prop :=
  ∀ (s : State) (key : Key) (sel : Byte) (data : List Byte) (f : Face) (k : Setting) (v : Nat), s.takesRequests →
    faceOf key.k1 = some f → (settingOf sel.toNat = some k ∨ (sel = 13#8 ∧ k = .reopenLimit)) →
    readNum data = some v →
    (k = .reopenLimit → (∃ x ∈ (s.face f).bays, 0 < x.reopens) → Answers (.amendFace key sel data) s .inUse [] s) ∧
      ((k = .reopenLimit → ∀ x ∈ (s.face f).bays, x.reopens = 0) →
        ∃ t w, w = (if v < (k.range (s.face f).config).1 then (k.range (s.face f).config).1
                    else if (k.range (s.face f).config).2 < v then (k.range (s.face f).config).2 else v) ∧
          Answers (.amendFace key sel data) s (if w = v then .done else .clamped) (num w) t ∧
          t = s.modFace f (fun x : FaceState => { x with config := k.store w x.config, au := (t.face f).au }) ∧
          (k ≠ .interleave → (t.face f).au = (s.face f).au) ∧
          (t.face f).au =
            { (s.face f).au with
              markerRequest := (t.face f).au.markerRequest, nextMarker := (t.face f).au.nextMarker } ∧
          (k = .interleave → (t.face f).au.markerRequest = t.wantsMarker f)) ∧
      ∀ n lo hi, (n, lo, hi) ∈ [(2, 500, 1500), (5, 20, 500), (6, 1, 4), (7, 200, 5000), (8, 500, 10000),
          (9, 300, 5000), (10, 1000, 10000), (11, 1000, 8000), (12, 1000, 10000), (14, 100, 3000), (15, 2000, 60000),
          (13, 1, 5), (16, 1000, 30000), (17, 5000, 120000), (19, 0, 63), (20, 0, 8), (3, 50, min 1000 (s.face f).config.tCoarse),
          (4, (s.face f).config.tFine, 3000)] →
        sel.toNat = n → k.range (s.face f).config = (lo, hi)

/-- R2, R3, R4, R8: AMEND FACE of the geometry, the rate code, the disciplines and the lost action: the ordered refusals,
or the value stored and nothing else (log entry 19: a length that cuts a bay or a mark is CONFLICT before it is
OUT_OF_RANGE). A selector that names no field is BAD_REQUEST. -/
def Obligations.AmendFaceRefusesOtherFields : Prop :=
  ∀ (s : State) (key : Key) (data : List Byte) (f : Face), s.takesRequests → faceOf key.k1 = some f →
    (∀ v, readOptionalNum data = some v →
      ((s.face f).fi.mode ≠ .maintenance → Answers (.amendFace key 1#8 data) s .wrongMode [] s) ∧
      ((s.face f).fi.mode = .maintenance →
        (v = none → (s.face f).bays = [] → (s.face f).config.marks = [] →
          Answers (.amendFace key 1#8 data) s .done [] (s.modConfig f fun c => { c with lf := none })) ∧
        (v = none → (s.face f).bays ≠ [] ∨ (s.face f).config.marks ≠ [] →
          Answers (.amendFace key 1#8 data) s .conflict [] s) ∧
        (∀ lf, v = some lf →
          ((∃ b ∈ (s.face f).bays, 2 * lf < 2 * b.centre + b.width) ∨ (∃ m ∈ (s.face f).config.marks, lf < m) →
            Answers (.amendFace key 1#8 data) s .conflict [] s) ∧
          ((∀ b ∈ (s.face f).bays, 2 * b.centre + b.width ≤ 2 * lf) → (∀ m ∈ (s.face f).config.marks, m ≤ lf) →
            (20000 ≤ lf ∧ lf ≤ 250000 →
              Answers (.amendFace key 1#8 data) s .done [] (s.modConfig f fun c => { c with lf := some lf })) ∧
            (lf < 20000 ∨ 250000 < lf → Answers (.amendFace key 1#8 data) s .outOfRange [] s)))) ∧
      ∀ (sel : Byte) (dir : Direction) (n : Nat), 1 ≤ n → n ≤ 10 →
        sel.toNat = n + (match dir with
          | .up => 63
          | .down => 79) →
        ((s.face f).fi.mode ≠ .maintenance → Answers (.amendFace key sel data) s .wrongMode [] s) ∧
        ((s.face f).fi.mode = .maintenance →
          (v = none → Answers (.amendFace key sel data) s .done [] (s.modConfig f fun c => c.setMark dir n none)) ∧
          (∀ p, v = some p → (s.face f).config.lf = none → Answers (.amendFace key sel data) s .conflict [] s) ∧
          (∀ p lf, v = some p → (s.face f).config.lf = some lf →
            (p ≤ lf → Answers (.amendFace key sel data) s .done [] (s.modConfig f fun c => c.setMark dir n (some p))) ∧
            (lf < p → Answers (.amendFace key sel data) s .outOfRange [] s)))) ∧
    (∀ v, readEnum data = some v →
      ((s.face f).line.enabled = true ∨ (s.face f).line.stopping = true ∨ (s.face f).line.signal ≠ .none →
        Answers (.amendFace key 18#8 data) s .inUse [] s) ∧
      ((s.face f).line.enabled = false → (s.face f).line.stopping = false → (s.face f).line.signal = .none →
        (∀ r, rateOf v = some r →
          Answers (.amendFace key 18#8 data) s .done [] (s.modConfig f fun c => { c with rate := r })) ∧
        (4 ≤ v → Answers (.amendFace key 18#8 data) s .outOfRange [] s)) ∧
      (∀ d, arbiterOf v = some d →
        Answers (.amendFace key 21#8 data) s .done [] (s.modConfig f fun c => { c with arbiter := d })) ∧
      (2 ≤ v → Answers (.amendFace key 21#8 data) s .outOfRange [] s) ∧
      (∀ d, pollClassOf v = some d →
        Answers (.amendFace key 22#8 data) s .done [] (s.modConfig f fun c => { c with lowest := d })) ∧
      (3 ≤ v → Answers (.amendFace key 22#8 data) s .outOfRange [] s) ∧
      (∀ a, lostActionOf v = some a →
        Answers (.amendFace key 23#8 data) s .done [] (s.modConfig f fun c => { c with lostAction := a })) ∧
      (2 ≤ v → Answers (.amendFace key 23#8 data) s .outOfRange [] s)) ∧
    ∀ sel : Byte, sel.toNat = 0 ∨ (24 ≤ sel.toNat ∧ sel.toNat ≤ 63) ∨ (74 ≤ sel.toNat ∧ sel.toNat ≤ 79) ∨
        90 ≤ sel.toNat → Answers (.amendFace key sel data) s .badRequest [] s

/-- R10, R11, R12: the opening of a bay number, a centre and a width lies whole on a face of a length. -/
def onTheFace (lf n c w : Nat) : Prop :=
  1 ≤ n ∧ n ≤ 32 ∧ c ≤ lf ∧ 600 ≤ w ∧ w ≤ 3000 ∧ w ≤ 2 * c ∧ 2 * c + w ≤ 2 * lf

/-- R10, checks 7 and 8: the opening overlaps no other bay's, and the centres ascend with the numbers. -/
def clearOf (n c w : Nat) (others : List Bay) : Prop :=
  ∀ y ∈ others, openingsOverlap c w y = false ∧ (y.num < n → y.centre < c) ∧ (n < y.num → c < y.centre)

/-- R10, R154: ENROL BAY: the ordered refusals, or a new bay in its place with its dynamic fields at their first values;
FI's condition 2 then fails, since the new bay is UNKNOWN. Nothing else changes. -/
def Obligations.EnrolBayPlacesANewBay : Prop :=
  ∀ (s : State) (key : Key) (data : List Byte) (f : Face) (c w : Nat), s.takesRequests → faceOf key.k1 = some f →
    readTwoNums data = some (c, w) →
    ((s.face f).fi.mode ≠ .maintenance → Answers (.enrolBay key data) s .wrongMode [] s) ∧
    ((s.face f).fi.mode = .maintenance →
      ((s.face f).line.enabled = true → Answers (.enrolBay key data) s .inUse [] s) ∧
      ((s.face f).line.enabled = false →
        ((s.face f).config.lf = none → Answers (.enrolBay key data) s .conflict [] s) ∧
        ∀ lf, (s.face f).config.lf = some lf →
          (¬onTheFace lf key.k2.toNat c w → Answers (.enrolBay key data) s .outOfRange [] s) ∧
          (onTheFace lf key.k2.toNat c w →
            ((∃ y ∈ (s.face f).bays, y.num = key.k2.toNat) ∨ ¬clearOf key.k2.toNat c w (s.face f).bays →
              Answers (.enrolBay key data) s .conflict [] s) ∧
            ((∀ y ∈ (s.face f).bays, y.num ≠ key.k2.toNat) → clearOf key.k2.toNat c w (s.face f).bays →
              Answers (.enrolBay key data) s .done []
                (s.modFace f fun x : FaceState =>
                  { x with bays := insertBay (newBay key.k2.toNat c w) x.bays }.proved
                    { x.fi.conditions with secure := false })))))

/-- R11, R12: AMEND BAY and RETIRE BAY: the ordered refusals; or the new centre or width stored, its old opening left
out of the comparison; or the bay gone, unless a presence record, its overflow mark or a release of bay scope names
it. That a selector that names no field is judged before the mode is the model's choice (log entry 9). -/
def Obligations.BaysAreAmendedAndRetired : Prop :=
  ∀ (s : State) (key : Key) (f : Face), s.takesRequests → faceOf key.k1 = some f →
    (∀ (sel : Byte) (data : List Byte), sel ≠ 1#8 → sel ≠ 2#8 → Answers (.amendBay key sel data) s .badRequest [] s) ∧
    (∀ (sel : Byte) (data : List Byte) (v : Nat), sel = 1#8 ∨ sel = 2#8 → readNum data = some v →
      ((s.face f).fi.mode ≠ .maintenance → Answers (.amendBay key sel data) s .wrongMode [] s) ∧
      ((s.face f).fi.mode = .maintenance → (s.face f).line.enabled = true →
        Answers (.amendBay key sel data) s .inUse [] s) ∧
      ((s.face f).fi.mode = .maintenance → (s.face f).line.enabled = false →
        ((s.face f).config.lf = none → Answers (.amendBay key sel data) s .conflict [] s) ∧
        ∀ lf, (s.face f).config.lf = some lf →
          (s.bay? f key.k2.toNat = none → Answers (.amendBay key sel data) s .noRecord [] s) ∧
          ∀ x, s.bay? f key.k2.toNat = some x →
            ∀ c w, c = (if sel = 1#8 then v else x.centre) → w = (if sel = 1#8 then x.width else v) →
            (¬onTheFace lf key.k2.toNat c w → Answers (.amendBay key sel data) s .outOfRange [] s) ∧
            (onTheFace lf key.k2.toNat c w →
              (clearOf key.k2.toNat c w ((s.face f).bays.filter fun y => y.num != key.k2.toNat) →
                Answers (.amendBay key sel data) s .done []
                  (s.modBay f key.k2.toNat fun y => { y with centre := c, width := w })) ∧
              (¬clearOf key.k2.toNat c w ((s.face f).bays.filter fun y => y.num != key.k2.toNat) →
                Answers (.amendBay key sel data) s .conflict [] s)))) ∧
    ((s.face f).fi.mode ≠ .maintenance → Answers (.retireBay key []) s .wrongMode [] s) ∧
    ((s.face f).fi.mode = .maintenance → (s.face f).line.enabled = true →
      Answers (.retireBay key []) s .inUse [] s) ∧
    ((s.face f).fi.mode = .maintenance → (s.face f).line.enabled = false →
      (s.bay? f key.k2.toNat = none → Answers (.retireBay key []) s .noRecord [] s) ∧
      ∀ x, s.bay? f key.k2.toNat = some x →
        ((∃ r ∈ s.presence, r.face = f ∧ r.bay = key.k2.toNat) ∨ x.overflow = true ∨
            (∃ r ∈ s.releases, r.key = .platformHandle f key.k2.toNat ∨ r.key = .trackHandle f key.k2.toNat) →
          Answers (.retireBay key []) s .inUse [] s) ∧
        ((∀ r ∈ s.presence, ¬(r.face = f ∧ r.bay = key.k2.toNat)) → x.overflow = false →
            (∀ r ∈ s.releases, r.key ≠ .platformHandle f key.k2.toNat ∧ r.key ≠ .trackHandle f key.k2.toNat) →
          Answers (.retireBay key []) s .done []
            (s.modFace f fun y =>
              { y with bays := y.bays.filter fun z : Bay => z.num != key.k2.toNat }.proved
                { y.fi.conditions with secure := (y.bays.filter fun z : Bay => z.num != key.k2.toNat).all Bay.secure })))

/-- R17: a door list is valid against a car count: 1 to 48 entries in their ranges, the offsets strictly ascending. -/
def validDoors (cars : Nat) (ds : List Door) : Prop :=
  1 ≤ ds.length ∧ ds.length ≤ 48 ∧
    (∀ d ∈ ds, 1 ≤ d.car ∧ d.car ≤ cars ∧ d.offset ≤ 250000 ∧ 600 ≤ d.width ∧ d.width ≤ 2000) ∧
    ds.Pairwise fun d e => d.offset < e.offset

/-- R17: the index that an invalid list's answer carries: 0 where its length is outside 1 to 48, else that of the first
entry that is out of range or does not ascend. -/
def firstBadDoor (cars : Nat) (ds : List Door) (i : Nat) : Prop :=
  (i = 0 ∧ (ds = [] ∨ 48 < ds.length)) ∨
    (1 ≤ i ∧ i ≤ ds.length ∧ ds.length ≤ 48 ∧ ¬validDoors cars (ds.take i) ∧
      (1 < i → validDoors cars (ds.take (i - 1))))

/-- R19, R17, R18: ENROL PROFILE: the ordered refusals; or the record in its place with reference count 0, its list's
length taken from the pool, and the free count after it in the answer. -/
def Obligations.EnrolProfileTakesFromThePool : Prop :=
  ∀ (s : State) (key : Key) (data : List Byte) (cars q : Nat) (ds : List Door), s.takesRequests →
    readProfile data = some (cars, q, ds) →
    (¬(1 ≤ key.k1.toNat ∧ 1 ≤ cars ∧ cars ≤ 10 ∧ q ≤ 250000) →
      Answers (.enrolProfile key data) s .outOfRange (num 0) s) ∧
    (1 ≤ key.k1.toNat ∧ 1 ≤ cars ∧ cars ≤ 10 ∧ q ≤ 250000 →
      (∀ i, firstBadDoor cars ds i → Answers (.enrolProfile key data) s .outOfRange (num i) s) ∧
      (validDoors cars ds →
        ((s.profile? key.k1.toNat).isSome = true → Answers (.enrolProfile key data) s .conflict [] s) ∧
        (s.profile? key.k1.toNat = none →
          (16 ≤ s.profiles.length ∨ s.freePool < ds.length → Answers (.enrolProfile key data) s .noSpace [] s) ∧
          (s.profiles.length < 16 → ds.length ≤ s.freePool →
            Answers (.enrolProfile key data) s .done (num (s.freePool - ds.length))
              { s with
                profiles := insertProfile { code := key.k1.toNat, cars := cars, q := q, doors := ds, refs := 0 } s.profiles
                freePool := s.freePool - ds.length }))))

/-- R20, R21: AMEND PROFILE: the ordered refusals (log entry 9 puts the coding after the selector); or the one field
stored, and for a door list the old length returned to the pool and the new one taken in one step. -/
def Obligations.AmendProfileChangesOneField : Prop :=
  ∀ (s : State) (key : Key) (sel : Byte) (data : List Byte), s.takesRequests →
    (s.profile? key.k1.toNat = none → Answers (.amendProfile key sel data) s .noRecord [] s) ∧
    ∀ p, s.profile? key.k1.toNat = some p →
      (sel.toNat < 4 ∨ 6 < sel.toNat → Answers (.amendProfile key sel data) s .badRequest [] s) ∧
      (((sel = 4#8 ∨ sel = 5#8) ∧ readNum data = none) ∨ (sel = 6#8 ∧ readDoorList data = none) →
        Answers (.amendProfile key sel data) s .badRequest [] s) ∧
      (((sel = 4#8 ∨ sel = 5#8) ∧ (readNum data).isSome = true) ∨ (sel = 6#8 ∧ (readDoorList data).isSome = true) →
        0 < p.refs → Answers (.amendProfile key sel data) s .inUse [] s) ∧
      (p.refs = 0 →
        (∀ v, sel = 4#8 → readNum data = some v →
          (v = 0 ∨ 10 < v → Answers (.amendProfile key sel data) s .outOfRange [] s) ∧
          (1 ≤ v → v ≤ 10 → (∃ d ∈ p.doors, v < d.car) → Answers (.amendProfile key sel data) s .conflict [] s) ∧
          (1 ≤ v → v ≤ 10 → (∀ d ∈ p.doors, d.car ≤ v) →
            Answers (.amendProfile key sel data) s .done [] (modProfile p.code (fun x => { x with cars := v }) s))) ∧
        (∀ v, sel = 5#8 → readNum data = some v →
          (250000 < v → Answers (.amendProfile key sel data) s .outOfRange [] s) ∧
          (v ≤ 250000 →
            Answers (.amendProfile key sel data) s .done [] (modProfile p.code (fun x => { x with q := v }) s))) ∧
        ∀ ds, sel = 6#8 → readDoorList data = some ds →
          (∀ i, firstBadDoor p.cars ds i → Answers (.amendProfile key sel data) s .outOfRange (num i) s) ∧
          (validDoors p.cars ds → s.freePool + p.doors.length < ds.length →
            Answers (.amendProfile key sel data) s .noSpace [] s) ∧
          (validDoors p.cars ds → ds.length ≤ s.freePool + p.doors.length →
            Answers (.amendProfile key sel data) s .done (num (s.freePool + p.doors.length - ds.length))
              (modProfile p.code (fun x => { x with doors := ds })
                { s with freePool := s.freePool + p.doors.length - ds.length })))

/-- R22: RETIRE PROFILE: no such profile, NO_RECORD; a reference standing, IN_USE; else the record is gone, its list's
length is back in the pool, the answer carries the new free count, and the code is free. Where the counts are kept, no
berth named it. -/
def Obligations.RetireProfileReturnsItsEntries : Prop :=
  ∀ (s : State) (key : Key), s.takesRequests →
    (s.profile? key.k1.toNat = none → Answers (.retireProfile key []) s .noRecord [] s) ∧
    ∀ p, s.profile? key.k1.toNat = some p →
      (0 < p.refs → Answers (.retireProfile key []) s .inUse [] s) ∧
      (p.refs = 0 →
        ∃ t, Answers (.retireProfile key []) s .done (num (s.freePool + p.doors.length)) t ∧
          t = { s with
                profiles := s.profiles.filter (fun x => x.code != p.code)
                freePool := s.freePool + p.doors.length } ∧
          t.profile? p.code = none ∧ (ReferencesKept s → ∀ f, (t.face f).berth.profile ≠ some p.code))

/-! ### Berths and the train link -/

/-- R35, R24, R31, R34: ARRIVE in NORMAL or MANUAL on a VACANT berth, with a stop mark for its direction and car count
and an enrolled profile of that car count: the berth is ANNOUNCED with what the telegram says (the train number's low 16
bits), the profile's reference count rises by 1, and BERTH_CHANGE is latched. Of the rest of the part nothing changes but
AU's MARKER request and GM's entrapment flags. -/
def Obligations.ArriveAnnouncesATrain : Prop :=
  ∀ (s : State) (f : Face) (train profile cars : Nat) (dir : Direction), s.takesTelegrams f →
    (s.face f).fi.mode = .normal ∨ (s.face f).fi.mode = .manual → (s.face f).berth.state = .vacant →
    ((s.face f).config.mark? dir cars).isSome = true → (∃ p, s.profile? profile = some p ∧ p.cars = cars) →
    ∃ t, exec (.arrive f train profile dir cars) s = .next t ∧
      (t.face f).berth =
        { state := .announced, train := some (train % 65536), profile := some profile, dir := some dir
          cars := some cars, standstill := false, ht := none, snapshot := none, cause := none, refusedError := none
          moved := false, positionWait := none, lastTelegram := some s.now
          silence := some (s.after (s.face f).config.silence), silent := false
          corrupt := (s.face f).berth.corrupt, dropped := (s.face f).berth.dropped } ∧
      (t.face f).link = ⟨none, (s.face f).link.answers ++ [plain 1#8 .accepted]⟩ ∧
      t.profiles = s.profiles.map (fun p => if p.code = profile then { p with refs := p.refs + 1 } else p) ∧
      t = { s with profiles := t.profiles, faces := t.faces, presence := t.presence } ∧
      t.presenceBare = s.presenceBare ∧ (∀ g, g ≠ f → t.face g = s.face g) ∧ (s.face f).fixed (t.face f) ∧
      (t.face f).bays = (s.face f).bays ∧ (t.face f).line = (s.face f).line ∧ (t.face f).fi = (s.face f).fi ∧
      (t.face f).releaseOverflow = (s.face f).releaseOverflow ∧ t.latched f .berthChange = true ∧
      s.latchesOnly f [.berthChange, .entrapment] t

/-- R33 to R37, R41, R42, R44, R45: the telegrams that a rule refuses or that change nothing are heard and answered, and
that is all, but for UNSAFE_DEPART, which DEPART latches in an occupied berth that is not SECURED. A good telegram that
completes while 4 answers wait is dropped and counted; what the receiver had collected of it is gone. -/
def Obligations.TelegramsTurnedAwayChangeNothing : Prop :=
  (∀ (s : State) (f : Face) (b : BerthState) (m : Mode), s.takesTelegrams f → (s.face f).berth.state = b →
     (s.face f).fi.mode = m →
     (∀ train profile dir cars,
       (m ≠ .normal ∧ m ≠ .manual →
         exec (.arrive f train profile dir cars) s = .next (s.heard f (plain 1#8 .refusedMode))) ∧
       (m = .normal ∨ m = .manual →
         (b ≠ .vacant → exec (.arrive f train profile dir cars) s = .next (s.heard f (plain 1#8 .refusedState))) ∧
         (b = .vacant →
           (s.face f).config.mark? dir cars = none ∨ (∀ p, s.profile? profile = some p → p.cars ≠ cars) →
           exec (.arrive f train profile dir cars) s = .next (s.heard f (plain 1#8 .refusedProfile))))) ∧
     (∀ p,
       (b = .aligned ∨ b = .openService ∨ b = .closing ∨ b = .secured →
         exec (.standstillYes f p) s = .next (s.heard f (plain 2#8 .accepted))) ∧
       (b = .vacant ∨ b = .reposition →
         exec (.standstillYes f p) s = .next (s.heard f (plain 2#8 .refusedState))) ∧
       (b = .announced → exec (.standstillNo f p) s = .next (s.heard f (plain 2#8 .accepted))) ∧
       (b = .vacant → exec (.standstillNo f p) s = .next (s.heard f (plain 2#8 .refusedState)))) ∧
     (m ≠ .normal → exec (.openRequest f) s = .next (s.heard f (plain 3#8 .refusedMode))) ∧
     (m = .normal → b.opens = false ∨ (s.face f).berth.standstill = false ∨ (s.face f).berth.moved = true →
       exec (.openRequest f) s = .next (s.heard f (plain 3#8 .refusedState))) ∧
     (m = .manual ∨ m = .evacuation → exec (.closeRequest f) s = .next (s.heard f (plain 4#8 .refusedMode))) ∧
     (m ≠ .manual → m ≠ .evacuation →
       (b = .closing ∨ b = .secured → exec (.closeRequest f) s = .next (s.heard f (plain 4#8 .accepted))) ∧
       (b ≠ .closing → b ≠ .secured → b ≠ .openService →
         exec (.closeRequest f) s = .next (s.heard f (plain 4#8 .refusedState)))) ∧
     (b = .vacant →
       exec (.emergencyReleaseOn f) s = .next (s.heard f (plain 5#8 .refusedState)) ∧
         exec (.emergencyReleaseOff f) s = .next (s.heard f (plain 5#8 .refusedState)) ∧
         exec (.depart f) s = .next (s.heard f (plain 6#8 .refusedState))) ∧
     (b ≠ .vacant → b ≠ .secured →
       exec (.depart f) s = .next ((s.latch f .unsafeDepart).heard f (plain 6#8 .notSecured)))) ∧
  ∀ (s : State) (f : Face) (c : Instr), s.powered = true → 4 ≤ (s.face f).link.answers.length →
    commandFace c = some f → (telegramOf c).isSome = true →
    exec c s =
      .next (s.modFace f fun x : FaceState =>
        { x with
          link := { x.link with receiving := none }
          berth := { x.berth with dropped := if x.berth.dropped < 255 then x.berth.dropped + 1 else 255 } })

/-- The berth record of a train heard now (R34). -/
def heardBerth (s : State) (f : Face) : Berth :=
  { (s.face f).berth with lastTelegram := some s.now, silent := false, silence := some (s.after (s.face f).config.silence) }

/-- R63 to R70: the alignment of face `f` at head position `h`, the doors those of profile `p`, against the stop mark `mark`
in the direction `dir`: the stop error and the coarse test; the quality by the fine test; the mask and the door match set
of the doors and bays that overlap by at least M at `h`, and, where the reported head position lies further than A from
it, at both; and the empty test. -/
def alignsAs (s : State) (f : Face) (h : Int) (p : Profile) (dir : Direction) (mark : Nat) : Prop :=
  let c := (s.face f).config
  let bays := (s.face f).bays
  let d : Int := match dir with
    | .up => 1
    | .down => -1
  let e := (h - mark) * d
  let meets (x : Int) (door : Door) (y : Bay) : Prop :=
    2 * (c.minPassage : Int) ≤
      min (2 * (y.centre : Int) + y.width) (2 * (x - d * door.offset) + door.width) -
        max (2 * (y.centre : Int) - y.width) (2 * (x - d * door.offset) - door.width)
  (c.tCoarse < e.natAbs →
      computeAlignment s f h = some (.reposition (if 0 < e then .overrun else .underrun) e)) ∧
    (e.natAbs ≤ c.tCoarse →
      ∀ (xs : List Int) (quality : Quality),
        ((∃ t : Nat, (s.face f).berth.ht = some t ∧ c.agreement < ((t : Int) - h).natAbs ∧ xs = [h, (t : Int)] ∧
              quality = .split) ∨
            ((∀ t : Nat, (s.face f).berth.ht = some t → ((t : Int) - h).natAbs ≤ c.agreement) ∧ xs = [h] ∧
              quality = if e.natAbs ≤ c.tFine then .full else .offset)) →
        ∃ mask doors : List Nat,
          computeAlignment s f h =
              some (if mask = [] ∨ doors = [] then .reposition .noMatch e else .aligned ⟨h, e, quality, mask, doors⟩) ∧
            mask.Sublist (bays.map Bay.num) ∧
            (∀ y ∈ bays, y.num ∈ mask ↔ ∀ x ∈ xs, ∃ door ∈ p.doors, meets x door y) ∧
            doors.Pairwise (fun i j => i < j) ∧
            ∀ i, i ∈ doors ↔ 1 ≤ i ∧ ∃ door, p.doors[i - 1]? = some door ∧
              ∀ x ∈ xs, ∃ y ∈ bays, y.num ∈ mask ∧ meets x door y)

/-- R36, R38, R39, R59, R62 to R70: STANDSTILL yes in ANNOUNCED: a fusion is made, the berth stands, the reported head position
is taken where it lies on the face, and the position wait is armed; where the fusion is CONFIRMED the alignment at its
head position is taken at once. In STANDING only the reported head position is replaced. The alignment is computed from
the records as they stand. -/
def Obligations.StandstillYesAlignsTheTrain : Prop :=
  (∀ (s : State) (f : Face) (h : Int) (p : Profile) (dir : Direction) (cars mark : Nat),
    (s.face f).bays.Pairwise (fun a b => a.num < b.num) → s.berthProfile f = some p →
    (s.face f).berth.dir = some dir → (s.face f).berth.cars = some cars → (s.face f).config.mark? dir cars = some mark →
    alignsAs s f h p dir mark) ∧
  ∀ (s : State) (f : Face) (p : Option Nat), s.takesTelegrams f →
    ((s.face f).berth.state = .standing →
      exec (.standstillYes f p) s =
        .next ((s.modBerth f fun b => { b with ht := headTaken (s.face f).config p }).heard f (plain 2#8 .accepted))) ∧
    ((s.face f).berth.state = .announced →
      ∃ t b, exec (.standstillYes f p) s = .next t ∧
        b = { heardBerth s f with
              state := .standing, standstill := true, ht := headTaken (s.face f).config p
              positionWait := some (s.after (s.face f).config.positionWait) } ∧
        (t.face f).au.fusion = fuse s f ∧
        ((fuse s f).head = none → (t.face f).berth = b) ∧
        (∀ h, (fuse s f).head = some h →
          (∀ q, computeAlignment (s.modBerth f fun _ => b) f h = some (.aligned q) →
            (t.face f).berth = { b with state := .aligned, snapshot := some q, positionWait := none } ∧
              (q.quality ≠ .full → t.latched f .maskPartial = true)) ∧
          (∀ c e, computeAlignment (s.modBerth f fun _ => b) f h = some (.reposition c e) →
            (t.face f).berth =
              { b with state := .reposition, cause := some c, refusedError := some e, positionWait := none })) ∧
        (t.face f).link = ⟨none, (s.face f).link.answers ++ [plain 2#8 .accepted]⟩ ∧ s.elsewhere f t ∧
        (t.face f).config = (s.face f).config ∧ (t.face f).bays = (s.face f).bays ∧
        (t.face f).line = (s.face f).line ∧ (t.face f).fi = (s.face f).fi ∧
        (t.face f).au.readings = (s.face f).au.readings ∧ t.latched f .berthChange = true ∧
        s.latchesOnly f [.berthChange, .entrapment, .maskPartial] t)

/-- R37, R48, R95, R177: STANDSTILL no. In STANDING, ALIGNED and REPOSITION the berth returns to ANNOUNCED and keeps what the
train announced, and where a mask is dropped a RELEASED bay is given HOLD, which joins the queue, the bays in ascending order
(log entry 28); in OPEN_SERVICE and CLOSING a berth not yet moved is marked moved, TRAIN_MOVED is latched and the face
freezes; in SECURED, and where it was marked already, only standstill goes. -/
def Obligations.StandstillNoReturnsOrFreezes : Prop :=
  ∀ (s : State) (f : Face) (p : Option Nat), s.takesTelegrams f →
    ((s.face f).berth.state = .standing ∨ (s.face f).berth.state = .aligned ∨ (s.face f).berth.state = .reposition →
      ∃ t, exec (.standstillNo f p) s = .next t ∧
        (t.face f).berth =
          { heardBerth s f with
            state := .announced, standstill := false, ht := none, snapshot := none, cause := none
            refusedError := none, positionWait := none } ∧
        (t.face f).link = ⟨none, (s.face f).link.answers ++ [plain 2#8 .accepted]⟩ ∧ s.elsewhere f t ∧
        (s.face f).fixed (t.face f) ∧ (t.face f).fi = (s.face f).fi ∧ t.latched f .berthChange = true ∧
        (∀ b x, s.bay? f b = some x → t.bay? f b = some (s.unmasked f x)) ∧ s.handsOver f (s.bayNums f) t ∧
        s.latchesOnly f [.berthChange, .entrapment] t) ∧
    ((s.face f).berth.state = .openService ∨ (s.face f).berth.state = .closing → (s.face f).berth.moved = false →
      exec (.standstillNo f p) s =
        .next ((((s.latch f .trainMoved).modFace f fun x => x.frozenNow).modBerth f fun b =>
          { b with standstill := false, moved := true }).heard f (plain 2#8 .accepted))) ∧
    ((s.face f).berth.state = .secured ∨
        (((s.face f).berth.state = .openService ∨ (s.face f).berth.state = .closing) ∧ (s.face f).berth.moved = true) →
      exec (.standstillNo f p) s =
        .next ((s.modBerth f fun b => { b with standstill := false }).heard f (plain 2#8 .accepted)))

/-- R41, R80: OPEN_REQUEST in NORMAL of a train that stands and has not moved: the answer carries the door match set. In
ALIGNED, CLOSING or SECURED the berth goes to OPEN_SERVICE and each bay of the mask takes the open event; bays outside
the mask, and every bay where the berth was OPEN_SERVICE already, are as before. The commands that this gives join the
queue (R174), the bays in ascending order (log entry 28). -/
def Obligations.OpenRequestOpensTheMask : Prop :=
  ∀ (s : State) (f : Face), s.takesTelegrams f → (s.face f).fi.mode = .normal → (s.face f).berth.standstill = true →
    (s.face f).berth.moved = false →
    ((s.face f).berth.state = .openService →
      exec (.openRequest f) s = .next (s.heard f (trainAnswer 3#8 .accepted (trainDoorSet (s.doorSet f))))) ∧
    ((s.face f).berth.state = .aligned ∨ (s.face f).berth.state = .closing ∨ (s.face f).berth.state = .secured →
      ∃ t, exec (.openRequest f) s = .next t ∧
        (t.face f).berth = { heardBerth s f with state := .openService } ∧
        (t.face f).link =
          ⟨none, (s.face f).link.answers ++ [trainAnswer 3#8 .accepted (trainDoorSet (s.doorSet f))]⟩ ∧
        (∀ b ∈ s.mask f, ∀ x, s.bay? f b = some x → t.bay? f b = some (s.opened f x)) ∧
        (∀ b, b ∉ s.mask f → t.bay? f b = s.bay? f b) ∧ s.handsOver f (s.mask f) t ∧ s.elsewhere f t ∧
        (s.face f).fixed (t.face f) ∧ (s.face f).fi.onlySecure (t.face f).fi ∧
        (t.face f).releaseOverflow = (s.face f).releaseOverflow ∧ t.latched f .berthChange = true ∧
        s.latchesOnly f [.berthChange, .entrapment, .provingChange] t)

/-- R42, R43, R82, R84: CLOSE_REQUEST in OPEN_SERVICE, in NORMAL, STARTING or MAINTENANCE (the moved flag may be set):
every masked bay that is OPEN starts its warning, every other bay is as before, and the berth goes to CLOSING, or, where
every masked bay is CLOSED_LOCKED, on to SECURED. -/
def Obligations.CloseRequestClosesTheMask : Prop :=
  ∀ (s : State) (f : Face), s.takesTelegrams f → (s.face f).fi.mode ≠ .manual → (s.face f).fi.mode ≠ .evacuation →
    (s.face f).berth.state = .openService →
    ∃ t, exec (.closeRequest f) s = .next t ∧
      (t.face f).berth =
        { heardBerth s f with state := if s.maskLocked f = true then .secured else .closing } ∧
      (t.face f).link = ⟨none, (s.face f).link.answers ++ [plain 4#8 .accepted]⟩ ∧
      (∀ b x, s.bay? f b = some x →
        t.bay? f b = some (if b ∈ s.mask f ∧ x.state = .open then s.warned f x else x)) ∧
      s.elsewhere f t ∧ (s.face f).fixed (t.face f) ∧ (t.face f).line = (s.face f).line ∧
      ((s.face f).fi.settled → (s.face f).fi.onlySecure (t.face f).fi) ∧ t.latched f .berthChange = true

/-- R45, R53, R25, R46: DEPART in SECURED and RETIRE BERTH of an occupied berth with every bay of its face secure: the
berth takes its VACANT values and what follows a vacancy happens, the commands given joining the queue in ascending order of
the bays (log entry 28); RETIRE BERTH of a VACANT berth is NO_RECORD, and with a
bay not secure IN_USE. STATUS_QUERY in every mode and state answers the berth state, the quality, the door match set, the
released flag and the proven flag, and is only heard. -/
def Obligations.DepartAndRetireBerthVacate : Prop :=
  (∀ (s : State) (f : Face), s.takesTelegrams f →
     ((s.face f).berth.state = .secured →
       ∃ t, exec (.depart f) s = .next t ∧ s.afterVacancy f t ∧
         (t.face f).berth =
           { Berth.powerOn with
             lastTelegram := some s.now, corrupt := (s.face f).berth.corrupt, dropped := (s.face f).berth.dropped } ∧
         (t.face f).link = ⟨none, (s.face f).link.answers ++ [plain 6#8 .accepted]⟩) ∧
     exec (.statusQuery f) s =
       .next (s.heard f (trainAnswer 7#8 .status
         ([chr (s.face f).berth.state.code, qualityItem ((s.face f).berth.snapshot.map Snapshot.quality)] ++
           trainDoorSet (s.doorSet f) ++
           [chr ((if s.releaseStanding f then 1 else 0) + (if (s.face f).fi.proving then 2 else 0))])))) ∧
  ∀ (s : State) (key : Key) (f : Face), s.takesRequests → faceOf key.k1 = some f →
    ((s.face f).berth.state = .vacant → Answers (.retireBerth key []) s .noRecord [] s) ∧
    ((s.face f).berth.state ≠ .vacant →
      ((∃ x ∈ (s.face f).bays, x.secure = false) → Answers (.retireBerth key []) s .inUse [] s) ∧
      ((∀ x ∈ (s.face f).bays, x.secure = true) →
        ∃ t, Answers (.retireBerth key []) s .done [] t ∧ s.afterVacancy f t ∧
          (t.face f).berth = (s.face f).berth.vacated ∧ (t.face f).link = (s.face f).link))

/-- R32, R33, R40, R51, R199, R200: a corrupt telegram, and one left incomplete for more than 50 ms, changes only the
counter and what is being collected; the answer sent leaves the queue and the next one begins; an expired position wait
makes the berth REPOSITION with cause NO_POSITION; an expired silence deadline sets the silent flag and latches
TRAIN_LINK_SILENT. A deadline that is not due changes nothing (log entry 2). The receiver starts a telegram at an opening
character, collects as many as the kind calls for, and has it judged; the transmitter sends on. How characters come to
the receiver, that a millisecond takes one of them and sends 9.6 bit times, and that a command CORRUPT_TELEGRAM of its own
counts whatever the receiver holds are the model's choices (log entry 17). -/
def Obligations.LinkAndBerthTimersAct : Prop :=
  ∀ (s : State) (f : Face), s.powered = true →
    (∀ cause, exec (.corruptTelegram f cause) s =
      .next (s.modFace f fun x : FaceState =>
        { x with
          link := { x.link with
                    receiving := match cause with
                      | .judged => none
                      | .newOpening => some ⟨[⟨165#8, true, true⟩], s.now⟩ }
          berth := { x.berth with corrupt := if x.berth.corrupt < 255 then x.berth.corrupt + 1 else 255 } })) ∧
    ((∃ p, (s.face f).link.receiving = some p ∧ 50 < s.age p.lastAt) →
      exec (.telegramGapExpiry f) s =
        .next (s.modFace f fun x : FaceState =>
          { x with
            link := { x.link with receiving := none }
            berth := { x.berth with corrupt := if x.berth.corrupt < 255 then x.berth.corrupt + 1 else 255 } })) ∧
    ((∀ p, (s.face f).link.receiving = some p → s.age p.lastAt ≤ 50) → exec (.telegramGapExpiry f) s = .next s) ∧
    (∀ a rest, (s.face f).tltx.cut = none → (s.face f).link.answers = a :: rest →
      exec (.trainAnswerSent f) s =
        .next (s.modFace f fun x : FaceState =>
          { x with
            link := { x.link with answers := rest }
            tltx := ⟨if rest = [] then 0 else x.tltx.elapsed - 110 * a.length, none⟩ })) ∧
    ((s.face f).tltx.cut ≠ none ∨ (s.face f).link.answers = [] → exec (.trainAnswerSent f) s = .next s) ∧
    (s.pending = [] → ∃ t, step s = .next t ∧ s.receivesTrain f t ∧
      (∀ cs, (s.face f).tltx.cut = some cs → ∀ e, e = (s.face f).tltx.elapsed + 96 →
        (t.face f).tltx =
          if e < 110 * cs.length then ⟨e, some cs⟩
          else ⟨if (s.face f).link.answers = [] then 0 else e - 110 * cs.length, none⟩) ∧
      ((s.face f).tltx.cut = none → (s.face f).link.answers ≠ [] →
        (t.face f).tltx = ⟨(s.face f).tltx.elapsed + 96, none⟩)) ∧
    (∀ d, (s.face f).berth.silence = some d →
      (s.reached d = true → exec (.silenceDeadlineExpiry f) s =
        .next ((s.modBerth f fun b => { b with silent := true, silence := none }).latch f .trainLinkSilent)) ∧
      (s.reached d = false → exec (.silenceDeadlineExpiry f) s = .next s)) ∧
    ((s.face f).berth.silence = none → exec (.silenceDeadlineExpiry f) s = .next s) ∧
    ((s.face f).berth.positionWait = none → exec (.positionWaitExpiry f) s = .next s) ∧
    ∀ d, (s.face f).berth.positionWait = some d →
      (s.reached d = false → exec (.positionWaitExpiry f) s = .next s) ∧
      (s.reached d = true → (s.face f).berth.state = .standing →
        ∃ t, exec (.positionWaitExpiry f) s = .next t ∧
          (t.face f).berth =
            { (s.face f).berth with
              state := .reposition, cause := some .noPosition, refusedError := none, positionWait := none } ∧
          s.elsewhere f t ∧ (s.face f).fixed (t.face f) ∧ (t.face f).bays = (s.face f).bays ∧
          (t.face f).line = (s.face f).line ∧ (t.face f).fi = (s.face f).fi ∧ (t.face f).link = (s.face f).link ∧
          t.latched f .berthChange = true ∧ s.latchesOnly f [.berthChange, .entrapment] t)

/-- R60, with what R58, R59 and R61 say of the estimates and the result: an estimate is valid where the reading is present,
seen, younger than the reading age limit, and on the face; no valid estimate, UNCONFIRMED with m 0; else the median is the estimate
at position (n - 1)/2 of the ascending order, the lower middle of an even n, and the estimates within the agreement limit
of it are kept, the median among them. Fewer than N_min kept, UNCONFIRMED; else the head position is the mean of the kept
ones rounded half up, which lies between two of them and on the face. The counts n and m and the time are recorded. -/
def Obligations.FusionAgreesWithTheMedian : Prop :=
  ∀ (s : State) (f : Face) (es ks : List Int) (limit : Nat) (median : Int), es = estimates s f →
    limit = (s.face f).config.agreement → median = medianOf es → ks = keptOf limit es →
    (∀ p dir lf, s.berthProfile f = some p → (s.face f).berth.dir = some dir → (s.face f).config.lf = some lf →
      es = [Marker.m1, .m2, .m3, .m4].filterMap fun k =>
        ((s.face f).au.readings.get k).bind fun r =>
          let e : Int := r.position + (match dir with
            | .up => (p.q : Int)
            | .down => -(p.q : Int))
          if r.seen = true ∧ s.age r.takenAt < (s.face f).config.readingAge ∧ 0 ≤ e ∧ e ≤ lf then some e else none) ∧
    (s.berthProfile f = none ∨ (s.face f).berth.dir = none ∨ (s.face f).config.lf = none → es = []) ∧
    es.length ≤ 4 ∧ (es = [] → fuse s f = ⟨none, 0, 0, some s.now⟩) ∧
    (es ≠ [] →
      (∃ sorted : List Int, sorted.Perm es ∧ sorted.Pairwise (fun a b => a ≤ b) ∧
        sorted[(es.length - 1) / 2]? = some median) ∧
      ks = es.filter (fun e => decide (median - limit ≤ e ∧ e ≤ median + limit)) ∧ median ∈ ks ∧
      (ks.length < (s.face f).config.nMin → fuse s f = ⟨none, es.length, ks.length, some s.now⟩) ∧
      ((s.face f).config.nMin ≤ ks.length →
        ∃ (h : Int) (lf : Nat), fuse s f = ⟨some h, es.length, ks.length, some s.now⟩ ∧
          ks.length * h ≤ ks.sum + (ks.length / 2 : Nat) ∧ ks.sum + (ks.length / 2 : Nat) < ks.length * (h + 1) ∧
          (∃ e ∈ ks, e ≤ h) ∧ (∃ e ∈ ks, h ≤ e) ∧ (s.face f).config.lf = some lf ∧ 0 ≤ h ∧ h ≤ lf ∧
          ∀ e ∈ ks, 0 ≤ e ∧ e ≤ lf))

/-! ### Presence and releases -/

/-- R84, R86, R104 to R111, R113, R114, R116: a bay report and the presence list. GAP: a first interruption is recorded SUSPECT, a second
one OCCUPIED with PRESENCE_NEW, a clear report retires a SUSPECT record, starts the clear-hold of an OCCUPIED one, and
begins a suspended clear-hold afresh. EDGE likewise from OCCUPIED, judged after GAP. A full list sets the bay's overflow
mark, which bars creations and which a wholly clear report clears. A record that stays OCCUPIED is reported as an entrapment
once it is older than the limit while its bay or berth is closing, closed or held open. The first record or mark of a zone
is an onset: a WARNING bay's warning is held, and a CLOSING bay reopens, or is HELD_OPEN at the reopen limit. -/
def Obligations.ReportsSetThePresenceRecords : Prop :=
  ∀ (s : State) (f : Face) (b : Nat) (chars : List Byte) (x : Bay), PresenceListKept s → s.reporting f b chars →
    s.bay? f b = some x →
    ∃ t, exec (.responseComplete f chars) s = .next t ∧
      ∀ (r : BayResponse) (hold : Time), r = readBayResponse (chars.take 6) →
        hold = s.after (s.face f).config.clearHold →
      (s.presenceAt f b .gap = none →
        (r.beams = 0#4 ∨ x.overflow = true → t.presenceAt f b .gap = none) ∧
        (r.beams ≠ 0#4 → x.overflow = false →
          (s.presence.length < 48 →
            t.bareAt f b .gap = some ⟨f, b, .gap, .suspect, s.now, some r.beams, s.now, none, none, false⟩) ∧
          (48 ≤ s.presence.length → t.presenceAt f b .gap = none ∧ t.latched f .presenceOverflow = true ∧
            ∃ y, t.bay? f b = some y ∧ y.overflow = true) ∧
          ((s.face f).berth.state = .vacant → t.latched f .tracksidePresence = true))) ∧
      (∀ g, s.presenceAt f b .gap = some g →
        (r.beams ≠ 0#4 → t.bareAt f b .gap = some (g.seen s.now r.beams).bare ∧
          (g.state = .suspect → t.latched f .presenceNew = true)) ∧
        (r.beams = 0#4 →
          (g.state = .suspect → t.presenceAt f b .gap = none) ∧
          (g.state = .occupied → t.bareAt f b .gap = some (g.clear s.now hold).bare) ∧
          (g.state = .clearing → ∀ d v, g.clearHold = some ⟨d, v⟩ →
            t.bareAt f b .gap = some (if v then (g.clear s.now hold).bare else g.bare)))) ∧
      (∀ room : Bool, room = decide ((match s.presenceAt f b .gap with
            | none => if r.beams ≠ 0#4 ∧ x.overflow = false then s.presence.length + 1 else s.presence.length
            | some g => if g.state = .suspect ∧ r.beams = 0#4 then s.presence.length - 1 else s.presence.length) < 48) →
        s.presenceAt f b .edge = none →
        (r.edge = false ∨ x.overflow = true → t.presenceAt f b .edge = none) ∧
        (r.edge = true → x.overflow = false →
          (room = true →
            t.bareAt f b .edge = some ⟨f, b, .edge, .occupied, s.now, none, s.now, none, none, false⟩ ∧
              t.latched f .presenceNew = true) ∧
          (room = false → t.presenceAt f b .edge = none ∧ t.latched f .presenceOverflow = true ∧
            ∃ y, t.bay? f b = some y ∧ y.overflow = true))) ∧
      (∀ g, s.presenceAt f b .edge = some g →
        (r.edge = true → t.bareAt f b .edge = some (g.seen s.now 0#4).bare) ∧
        (r.edge = false → g.state = .occupied → t.bareAt f b .edge = some (g.clear s.now hold).bare) ∧
        (r.edge = false → g.state = .clearing → ∀ d v, g.clearHold = some ⟨d, v⟩ →
          t.bareAt f b .edge = some (if v then (g.clear s.now hold).bare else g.bare))) ∧
      (r.beams = 0#4 → r.edge = false → ∃ y, t.bay? f b = some y ∧ y.overflow = false) ∧
      (∀ g c z, ¬(g = f ∧ c = b) → t.bareAt g c z = s.bareAt g c z) ∧
      (∀ g, s.presenceAt f b .gap = some g → g.state = .occupied → r.beams ≠ 0#4 →
        ∃ q, t.presenceAt f b .gap = some q ∧
          (s.age g.onset ≤ (s.face f).config.entrapment → q.reported = g.reported) ∧
          ((s.face f).config.entrapment < s.age g.onset →
            ((t.face f).berth.state = .closing ∨ (t.face f).berth.state = .secured ∨
              (r.platformHandle = false ∧ r.trackHandle = false ∧ ∃ y, t.bay? f b = some y ∧
                (y.state = .closing ∨ y.state = .closedLocked ∨ y.state = .heldOpen))) →
            q.reported = true ∧ (g.reported = false → t.latched f .entrapment = true))) ∧
      (x.overflow = false → x.restorePending = false → r.platformHandle = false → r.trackHandle = false →
        (r.beams ≠ 0#4 ∧ s.presenceAt f b .gap = none) ∨ (r.edge = true ∧ s.presenceAt f b .edge = none) →
        (x.state = .warning →
          ∃ y, t.bay? f b = some y ∧ y.state = .warning ∧ y.deadline = none ∧ y.liveWarning = x.liveWarning ∧
            y.reopens = x.reopens ∧ y.lastCommand = x.lastCommand) ∧
        (x.state = .closing → r.report.motorFault = false → r.report.closedLocked = false →
          ∀ allowed, allowed = decide (b ∈ s.mask f ∨ (s.face f).fi.mode = .maintenance) →
            ∃ y, t.bay? f b = some y ∧ y.lastCommand = some (if allowed = true then .open else .hold) ∧
              (allowed = true → (s.face f).line.frozen = false → (t.face f).line.carries b .open) ∧
              (allowed = false → (t.face f).line.carries b .hold) ∧
              (x.reopens < (s.face f).config.reopenLimit →
                y.state = .reopening ∧ y.reopens = x.reopens + 1 ∧
                  y.deadline =
                    if allowed = true then s.deadline f .open (s.face f).config.openLimit else none) ∧
              ((s.face f).config.reopenLimit ≤ x.reopens →
                y.state = .heldOpen ∧ y.reopens = x.reopens ∧ y.deadline = none ∧ t.latched f .reopenLimit = true)))

/-- R84, R87, R106, R111, R112, R115: a clear-hold that is due retires its record and no other; where the bay then has no
presence standing, DS takes a clearance, which starts the warning of a WARNING bay afresh, and moves a REOPENING bay whose
deadline is gone to WARNING, or, sent HOLD and at the reopen limit, to HELD_OPEN. A clear-hold that is suspended or not
due changes nothing (log entry 2). -/
def Obligations.ClearHoldExpiryRetires : Prop :=
  ∀ (s : State) (f : Face) (b : Nat) (z : Zone), s.powered = true →
    ((∀ r, s.presenceAt f b z = some r → ¬(r.state = .clearing ∧ ∃ d, r.clearHold = some ⟨d, false⟩ ∧ s.reached d = true)) →
      exec (.clearHoldExpiry f b z) s = .next s) ∧
    (∀ r d, s.presenceAt f b z = some r → r.state = .clearing → r.clearHold = some ⟨d, false⟩ → s.reached d = true →
      ∃ t, exec (.clearHoldExpiry f b z) s = .next t ∧
        t.presenceBare = (s.presence.filter fun q => !q.isAt f b z).map Presence.bare ∧
        t = { s with faces := t.faces, presence := t.presence } ∧ (∀ g, g ≠ f → t.face g = s.face g) ∧
        s.otherBays f b t ∧ (s.face f).fixed (t.face f) ∧ (t.face f).line = (s.face f).line ∧
        ∀ x warned, s.bay? f b = some x →
          warned = { x with
            state := .warning, liveWarning := some (s.face f).config.warning
            deadline := s.deadline f .warning (s.face f).config.warning } →
          (x.state ≠ .warning → x.state ≠ .reopening → t.bay? f b = some x) ∧
          (x.overflow = true ∨ (∃ q ∈ s.presence, q.face = f ∧ q.bay = b ∧ q.isAt f b z = false) →
            t.bay? f b = some x) ∧
          (x.overflow = false → (∀ q ∈ s.presence, q.face = f → q.bay = b → q.isAt f b z = true) →
            (x.state = .warning → t.bay? f b = some warned) ∧
            (x.state = .reopening →
              (x.deadline ≠ none → t.bay? f b = some x) ∧
              (x.deadline = none →
                (x.lastCommand = some .hold ∧ x.reopens = (s.face f).config.reopenLimit →
                  t.bay? f b = some { x with state := .heldOpen } ∧ t.latched f .reopenLimit = true) ∧
                (x.lastCommand ≠ some .hold ∨ x.reopens ≠ (s.face f).config.reopenLimit →
                  t.bay? f b = some warned)))))

/-- A kind stands in the attention set of the key's face, or, for STATION_EVAC, of every face (R125, R126). -/
def latchedFor (t : State) (k : ReleaseKey) (a : Attn) : Prop :=
  ∀ f, k.face? = some f ∨ k.face? = none → t.latched f a = true

/-- R123: `tag` is the first from the next-tag value on, 255 being followed by 1, that no record of the list holds. -/
def newTag (rs : List Release) (next tag : Nat) : Prop :=
  ∃ n, tag = (next - 1 + n) % 255 + 1 ∧ (∀ r ∈ rs, r.tag ≠ tag) ∧
    ∀ m, m < n → ∃ r ∈ rs, r.tag = (next - 1 + m) % 255 + 1

/-- R123, R125, R126, R132: the release list and the next-tag value after an activation (`on`) or a quiescence of a key: a
record of the key changes in its place; a new one stands at the tail under the first free tag, which the next-tag value
then follows; a full list stays. -/
def releaseEvent (now : Time) (k : ReleaseKey) (on : Bool) (rs rs' : List Release) (next next' : Nat) : Prop :=
  (on = false →
      next' = next ∧
        rs' = rs.map fun q =>
          if q.key = k ∧ q.active = true then { q with active := false, quiescentSince := some now } else q) ∧
    (on = true →
      ((∃ q ∈ rs, q.key = k) →
        next' = next ∧
          rs' = rs.map fun q => if q.key = k then { q with active := true, quiescentSince := none } else q) ∧
      ((∀ q ∈ rs, q.key ≠ k) →
        (32 ≤ rs.length → rs' = rs ∧ next' = next) ∧
        (rs.length < 32 → ∃ tag, newTag rs next tag ∧ next' = tag % 255 + 1 ∧
          rs' = rs ++ [{ tag := tag, key := k, active := true, onset := now, quiescentSince := none }])))

/-- The record of a release key after an activation (R125): `room` says whether the list holds fewer than 32. A record made
or made active again latches RELEASE_NEW. -/
def activated (s t : State) (k : ReleaseKey) (room : Bool) : Prop :=
  match s.releaseOf k with
  | some q =>
      t.releaseOf k = some (if q.active then q else { q with active := true, quiescentSince := none }) ∧
        (q.active = false → latchedFor t k .releaseNew)
  | none =>
      if room then
        ∃ r, t.releaseOf k = some r ∧ r.key = k ∧ r.active = true ∧ r.onset = s.now ∧ r.quiescentSince = none ∧
          1 ≤ r.tag ∧ r.tag ≤ 255 ∧ (∀ q ∈ s.releases, q.tag ≠ r.tag) ∧ latchedFor t k .releaseNew
      else t.releaseOf k = none

/-- The record of a release key after a quiescence (R126): one that was ACTIVE latches RELEASE_QUIESCENT. -/
def quiesced (s t : State) (k : ReleaseKey) : Prop :=
  t.releaseOf k =
      (s.releaseOf k).map (fun q => if q.active then { q with active := false, quiescentSince := some s.now } else q) ∧
    (s.activeRelease k = true → latchedFor t k .releaseQuiescent)

/-- A bay that a report leaves, or makes, one that a release can take (R78, R90, R93, R94): not UNKNOWN, FAULTED or
ISOLATED once DS has taken the report. That a motor fault in a motion state faults the bay whatever position the same report
shows is the model's choice (log entry 8), as is that DS takes a report before RM (log entry 4). -/
def takesRelease (s : State) (f : Face) (x : Bay) (r : BayReport) : Prop :=
  match x.state with
  | .unknown => (s.face f).fi.mode ≠ .maintenance ∧ x.isolated = false
  | .faulted | .isolated => x.restorePending = true
  | .unlocking | .opening | .closing | .reopening => x.restorePending = true ∨ r.motorFault = false
  | .closedLocked | .open | .warning | .heldOpen | .released => True

/-- R94, R95, R125 to R128, R132, R133: a bay report and the release list. Both handle states are stored; a handle OPERATED is
an activation of its key and a handle RESTORED a quiescence, the platform handle first; a full list sets the face's mark;
a track handle newly pulled with the berth VACANT latches TRACKSIDE_RELEASE. A bay that the report brings under a release is
RELEASED with HOLD, or, under the opening release of the mark, with OPEN where it is masked; the mark covers the other bays
of the face alike. A motor fault in a motion state comes before what the position shows, and such a bay is FAULTED and not
RELEASED: the model's choice (log entry 8; DS takes a report before RM: log entry 4). -/
def Obligations.ReportsSetTheHandleReleases : Prop :=
  ∀ (s : State) (f : Face) (b : Nat) (chars : List Byte) (x : Bay), ReleaseListKept s → s.reporting f b chars →
    s.bay? f b = some x →
    ∃ t, exec (.responseComplete f chars) s = .next t ∧
      ∀ (r : BayResponse), r = readBayResponse (chars.take 6) →
      (∃ y, t.bay? f b = some y ∧ y.platformHandle = r.platformHandle ∧ y.trackHandle = r.trackHandle) ∧
      (r.platformHandle = false → quiesced s t (.platformHandle f b)) ∧
      (r.platformHandle = true →
        activated s t (.platformHandle f b) (decide (s.releases.length < 32)) ∧
          (s.releaseOf (.platformHandle f b) = none → 32 ≤ s.releases.length →
            (t.face f).releaseOverflow = true ∧ t.latched f .releaseOverflow = true)) ∧
      (r.trackHandle = false → quiesced s t (.trackHandle f b)) ∧
      (∀ n, n = s.releases.length + (if r.platformHandle = true ∧ s.releaseOf (.platformHandle f b) = none then 1 else 0) →
        r.trackHandle = true →
        activated s t (.trackHandle f b) (decide (n < 32)) ∧
          (s.releaseOf (.trackHandle f b) = none → 32 ≤ n →
            (t.face f).releaseOverflow = true ∧ t.latched f .releaseOverflow = true) ∧
          (s.activeRelease (.trackHandle f b) = false → (s.face f).berth.state = .vacant →
            t.latched f .tracksideRelease = true)) ∧
      (∀ k, k ≠ .platformHandle f b → k ≠ .trackHandle f b → t.releaseOf k = s.releaseOf k) ∧
      (∃ rs next, releaseEvent s.now (.platformHandle f b) r.platformHandle s.releases rs s.nextTag next ∧
        releaseEvent s.now (.trackHandle f b) r.trackHandle rs t.releases next t.nextTag) ∧
      (r.platformHandle = true ∨ r.trackHandle = true → t.coverage f b ≠ .none) ∧
      (∀ c y, c ≠ b → s.bay? f c = some y → t.bay? f c = some (s.covered f y (t.coverage f c))) ∧
      (t.coverage f b ≠ .none → takesRelease s f x r.report →
        s.coverage f b ≠ t.coverage f b ∨ x.state = .unknown ∨ x.restorePending = true ∨ x.state = .released →
        ∃ y, t.bay? f b = some y ∧ y.state = .released ∧
          (x.state ≠ .released ∨ x.restorePending = true → y.deadline = none ∧ y.liveWarning = none ∧ y.reopens = 0) ∧
          (x.state ≠ .released ∨ x.restorePending = true ∨ t.coverage f b ≠ s.coverage f b →
            y.lastCommand = some (s.releasesWith f b (t.coverage f b)) ∧
              (x.lastCommand ≠ y.lastCommand →
                s.releasesWith f b (t.coverage f b) = .hold ∨ (s.face f).line.frozen = false →
                (t.face f).line.carries b (s.releasesWith f b (t.coverage f b))))) ∧
      (¬takesRelease s f x r.report →
        ∃ y, t.bay? f b = some y ∧ (y.state = .unknown ∨ y.state = .faulted ∨ y.state = .isolated))

/-- What a face-scope activation leaves: the record (R125), or the face's mark where the list is full (R132); and each
bay of a face that was not covered is RELEASED with its release command (R94, R95), but for one that is UNKNOWN, FAULTED
or ISOLATED; a RELEASED bay that a handle covered is given OPEN where it is masked. These commands join the queue (R174).
Other faces are as before, and so is the rest of the part and of the face, `base` being the face with the telegram heard, or as
it was; a SECURED berth of which a masked bay leaves CLOSED_LOCKED is CLOSING (R43), and FI's copies of conditions 2 and 4
follow (R154). -/
def faceReleased (s t : State) (f : Face) (k : ReleaseKey) (base : FaceState) : Prop :=
  activated s t k (decide (s.releases.length < 32)) ∧
    (s.releaseOf k = none → 32 ≤ s.releases.length →
      (t.face f).releaseOverflow = true ∧ t.latched f .releaseOverflow = true ∧ t.releases = s.releases) ∧
    (s.releaseOf k = none → t.releaseStanding f = true ∧ t.openingRelease f = true) ∧
    (∀ q, q ≠ k → t.releaseOf q = s.releaseOf q) ∧
    (s.releaseOf k = none → ∀ b x, s.bay? f b = some x → s.coverage f b = .none → x.state ≠ .released →
      t.bay? f b = some
        (match x.state with
          | .unknown | .faulted | .isolated => x
          | _ =>
              { x with
                state := .released, deadline := none, liveWarning := none, reopens := 0
                lastCommand := some (if b ∈ s.mask f then .open else .hold) })) ∧
    (∀ b x, s.bay? f b = some x → t.bay? f b = some (s.covered f x (t.coverage f b))) ∧
    s.handsOver f (s.bayNums f) t ∧ (s.releaseOf k ≠ none → (t.face f).bays = (s.face f).bays) ∧
    releaseEvent s.now k true s.releases t.releases s.nextTag t.nextTag ∧
    t = { s with releases := t.releases, nextTag := t.nextTag, faces := t.faces, presence := t.presence } ∧
    t.presenceBare = s.presenceBare ∧ (∀ g, g ≠ f → t.face g = s.face g) ∧
    base.fixed (t.face f) ∧ (t.face f).link = base.link ∧
    (s.releaseOf k ≠ none ∨ s.releases.length < 32 → (t.face f).releaseOverflow = base.releaseOverflow) ∧
    (SecuredKept s →
      (t.face f).berth =
        { base.berth with
          state := if base.berth.state = .secured ∧ t.maskLocked f = false then .closing else base.berth.state }) ∧
    (t.releaseStanding f ≠ s.releaseStanding f → (t.face f).fi.conditions.noRelease = !t.releaseStanding f) ∧
    (base.fi.settled →
      (t.face f).fi =
          { base.fi with
            conditions :=
              { base.fi.conditions with
                secure := (t.face f).fi.conditions.secure, noRelease := (t.face f).fi.conditions.noRelease }
            proving := (t.face f).fi.proving } ∧
        s.latchesOnly f [.releaseNew, .releaseOverflow, .berthChange, .provingChange, .entrapment] t)

/-- What a face-scope quiescence leaves (R126): the record, and RELEASE_QUIESCENT latched; the rest of the part and of the
face, `base` being the face with the telegram heard, or as it was, stays. -/
def faceQuieted (s t : State) (f : Face) (k : ReleaseKey) (base : FaceState) : Prop :=
  quiesced s t k ∧ releaseEvent s.now k false s.releases t.releases s.nextTag t.nextTag ∧
    t = { s with releases := t.releases, faces := t.faces } ∧ (∀ g, g ≠ f → t.face g = s.face g) ∧
    t.face f = { base with attn := (t.face f).attn } ∧ s.latchesOnly f [.releaseQuiescent] t

/-- R44, R129, R131: EMERGENCY_RELEASE in an occupied berth and FACE_RELEASE, on and off. FACE_RELEASE codes on 0 and off
1 (log entry 12); the commands given join the queue in ascending order of the bays (log entry 28). -/
def Obligations.FaceReleasesCoverTheFace : Prop :=
  ∀ (s : State) (f : Face), ReleaseListKept s →
    (s.takesTelegrams f → (s.face f).berth.state ≠ .vacant →
      (∃ t, exec (.emergencyReleaseOn f) s = .next t ∧
        faceReleased s t f (.trainRequest f) ((s.heard f (plain 5#8 .accepted)).face f) ∧
        (t.face f).link = ⟨none, (s.face f).link.answers ++ [plain 5#8 .accepted]⟩) ∧
      ∃ t, exec (.emergencyReleaseOff f) s = .next t ∧
        faceQuieted s t f (.trainRequest f) ((s.heard f (plain 5#8 .accepted)).face f) ∧
        (t.face f).bays = (s.face f).bays ∧ t.releases.length = s.releases.length ∧
        (t.face f).link = ⟨none, (s.face f).link.answers ++ [plain 5#8 .accepted]⟩ ∧
        (s.activeRelease (.trainRequest f) = true → t.latched f .releaseQuiescent = true)) ∧
    ∀ (cls : Byte) (key : Key) (data : List Byte), s.takesRequests → faceOf key.k1 = some f →
      (readEnum data = some 0 →
        ∃ t, faceReleased s t f (.supervisor f) (s.face f) ∧
          match t.releaseOf (.supervisor f) with
          | some r => Answers (.faceRelease cls key data) s .done (num r.tag) t
          | none => Answers (.faceRelease cls key data) s .noSpace [] t) ∧
      (readEnum data = some 1 →
        (s.releaseOf (.supervisor f) = none → Answers (.faceRelease cls key data) s .noRecord [] s) ∧
        ∀ q, s.releaseOf (.supervisor f) = some q →
          ∃ t, Answers (.faceRelease cls key data) s .done (num q.tag) t ∧
            faceQuieted s t f (.supervisor f) (s.face f)) ∧
      ∀ v, 2 ≤ v → readEnum data = some v → Answers (.faceRelease cls key data) s .badRequest [] s

/-- R95, R96, R135, R136, R133, R134: what a coverage change brings to face `g`: a RELEASED bay that nothing covers any more
takes its state by R96, one covered otherwise is given its release command of R95, and no other bay moves; the commands given
join the queue (R174); FI's condition 4 follows the list and the mark. -/
def coverageFollowed (s t : State) (g : Face) : Prop :=
  (t.releaseStanding g ≠ s.releaseStanding g → (t.face g).fi.conditions.noRelease = !t.releaseStanding g) ∧
    (∀ b x, s.bay? g b = some x → t.bay? g b = some (s.covered g x (t.coverage g b))) ∧ s.handsOver g (s.bayNums g) t ∧
    ∀ b x, s.bay? g b = some x →
      (t.coverage g b = s.coverage g b → t.bay? g b = some x) ∧
      (x.state = .unknown ∨ x.state = .faulted ∨ x.state = .isolated → t.bay? g b = some x) ∧
      (x.state = .released → t.coverage g b ≠ s.coverage g b →
        (t.coverage g b = .none → t.bay? g b = some (s.uncovered g x)) ∧
        (t.coverage g b ≠ .none →
          t.bay? g b =
            some { x with lastCommand := some (if t.coverage g b = .opening ∧ b ∈ s.mask g then .open else .hold) }))

/-- R95, R96, R133 to R136: RESET_RELEASE and CLEAR_OVERFLOW: the ordered refusals; or the record gone, the others in
their order, or the mark clear, and the coverage follows; the commands given join the queue in ascending order of the bays
(log entry 28). -/
def Obligations.ResetsEndReleases : Prop :=
  ∀ (s : State) (cls : Byte) (key : Key), s.takesRequests → ReleaseListKept s →
    (s.releaseTagged key.k1.toNat = none → Answers (.resetRelease cls key []) s .noRecord [] s) ∧
    (∀ r, s.releaseTagged key.k1.toNat = some r →
      (r.active = true → Answers (.resetRelease cls key []) s .notQuiescent [] s) ∧
      (r.active = false →
        ∃ t, Answers (.resetRelease cls key []) s .done [] t ∧
          t.releases = s.releases.filter (fun q => q.tag != key.k1.toNat) ∧ t.nextTag = s.nextTag ∧
          t = { s with releases := t.releases, faces := t.faces, presence := t.presence } ∧
          t.presenceBare = s.presenceBare ∧
          ∀ g, coverageFollowed s t g)) ∧
    ∀ f, faceOf key.k1 = some f →
      ((s.face f).releaseOverflow = false → Answers (.clearOverflow cls key []) s .done [] s) ∧
      ((s.face f).releaseOverflow = true →
        ((∃ x ∈ (s.face f).bays, x.platformHandle = true ∨ x.trackHandle = true) ∨ 32 ≤ s.releases.length ∨
            (s.evac.taken = true ∧ s.releaseOf .stationEvac = none) →
          Answers (.clearOverflow cls key []) s .notQuiescent [] s) ∧
        ((∀ x ∈ (s.face f).bays, x.platformHandle = false ∧ x.trackHandle = false) → s.releases.length < 32 →
            (s.evac.taken = true → s.releaseOf .stationEvac ≠ none) →
          ∃ t, Answers (.clearOverflow cls key []) s .done [] t ∧ (t.face f).releaseOverflow = false ∧
            t.releases = s.releases ∧ s.elsewhere f t ∧ coverageFollowed s t f))

/-! ### The bay line -/

/-- R171, R172, R182, R183: the requests on poll lists and the pass slot: the ordered refusals, or the list, the
discipline or the request put in its place. Nothing else changes but AU's MARKER request, whose markers a new running list
may name or no longer name. The answer of STAGE_LIST codes yes 0 and no 1 (log entry 12); that a refused STAGE_LIST leaves
the starved flag as it is is the model's choice (log entry 29). -/
def Obligations.PollListsAreLoadedAndStaged : Prop :=
  ∀ (s : State) (key : Key) (cls : Byte) (f : Face), s.takesRequests → faceOf key.k1 = some f →
    (∀ data es d, readPollList data = some (es, d) →
      ((s.face f).line.enabled = true → Answers (.amendPollListRunning key data) s .inUse [] s) ∧
      (validPollList es d = none →
        ((s.face f).line.enabled = false → Answers (.amendPollListRunning key data) s .outOfRange [] s) ∧
        Answers (.stageList cls key data) s .outOfRange [] s) ∧
      ∀ p, validPollList es d = some p →
        (s.covers f p = false →
          ((s.face f).line.enabled = false → Answers (.amendPollListRunning key data) s .conflict [] s) ∧
          Answers (.stageList cls key data) s .conflict [] s) ∧
        (s.covers f p = true →
          ((s.face f).line.enabled = false →
            ∃ t, Answers (.amendPollListRunning key data) s .done [] t ∧
              (t.face f).au.markerRequest = t.wantsMarker f ∧
              t = s.modFace f (fun x : FaceState =>
                { x with
                  line := { x.line with running := some p, position := 1 }
                  au := { x.au with markerRequest := (t.face f).au.markerRequest, nextMarker := (t.face f).au.nextMarker } })) ∧
          Answers (.stageList cls key data) s .done [if (s.face f).line.staged.isSome then 0#8 else 1#8]
            (s.modFace f fun x : FaceState => { x with line := { x.line with staged := some p, starved := false } }))) ∧
    (∀ data d, (readEnum data).bind disciplineOf = some d →
      ((s.face f).line.running = none → Answers (.amendPollListDiscipline key data) s .noRecord [] s) ∧
      ∀ p, (s.face f).line.running = some p →
        Answers (.amendPollListDiscipline key data) s .done []
          (s.modFace f fun x : FaceState => { x with line := { x.line with running := some { p with discipline := d } } })) ∧
    ((s.face f).line.enabled = true → Answers (.retirePollListRunning key []) s .inUse [] s) ∧
    ((s.face f).line.enabled = false →
      ((s.face f).line.running = none → Answers (.retirePollListRunning key []) s .noRecord [] s) ∧
      ((s.face f).line.running.isSome = true →
        Answers (.retirePollListRunning key []) s .done []
          (s.modFace f fun x : FaceState =>
            { x with line := { x.line with running := none }, au := { x.au with markerRequest := false } }))) ∧
    ((s.face f).line.staged = none → Answers (.retirePollListStaged key []) s .noRecord [] s) ∧
    ((s.face f).line.staged.isSome = true →
      Answers (.retirePollListStaged key []) s .done []
        (s.modFace f fun x : FaceState => { x with line := { x.line with staged := none } })) ∧
    (∀ data v, readEnum data = some v →
      (key.k2.toNat = 0 ∨ 36 < key.k2.toNat ∨ 2 ≤ v → Answers (.passThrough cls key data) s .outOfRange [] s) ∧
      ∀ fn, 1 ≤ key.k2.toNat → key.k2.toNat ≤ 36 → pollFunctionOf v = some fn →
        ((∃ r, (s.face f).line.passSlot = .waiting r ∨ (s.face f).line.passSlot = .inFlight r) →
          Answers (.passThrough cls key data) s .inUse [] s) ∧
        ((s.face f).line.passSlot = .empty ∨ (∃ r o d, (s.face f).line.passSlot = .ended r o d) →
          Answers (.passThrough cls key data) s .done []
            (s.modFace f fun x : FaceState => { x with line := { x.line with passSlot := .waiting ⟨key.k2.toNat, fn⟩ } })))

/-- R183: WITHDRAW: a face outside F0 to F3, NO_RECORD; a WAITING request is removed and PASS is no longer raised, DONE;
a request in flight runs on and an ENDED one keeps its result, LATE; an EMPTY slot, NO_RECORD. -/
def Obligations.WithdrawAnswersByTheSlot : Prop :=
  ∀ (s : State) (cls : Byte) (key : Key), s.takesRequests →
    (faceOf key.k1 = none → Answers (.withdraw cls key []) s .noRecord [] s) ∧
    ∀ f, faceOf key.k1 = some f →
      match (s.face f).line.passSlot with
      | .waiting _ =>
          ∃ t, Answers (.withdraw cls key []) s .done [] t ∧
            t = s.modFace f (fun x : FaceState => { x with line := { x.line with passSlot := .empty } }) ∧ raised t f .pass = false
      | .inFlight _ | .ended _ _ _ => Answers (.withdraw cls key []) s .late [] s
      | .empty => Answers (.withdraw cls key []) s .noRecord [] s

/-- R177, R179, R98, R99: FREEZE and UNFREEZE. UNFREEZE re-arms every suspended deadline in full, records HOLD for a bay
whose OPEN R76 no longer admits, and queues each bay's OPEN or CLOSE again, behind the entries of the other bays, which stay in
their order (R174); a face that is not frozen is as it was. -/
def Obligations.FreezeAndUnfreezeAFace : Prop :=
  ∀ (s : State) (cls : Byte) (key : Key) (f : Face), s.takesRequests → faceOf key.k1 = some f →
    Answers (.freeze cls key []) s .done [] (s.modFace f fun x : FaceState => x.frozenNow) ∧
    ((s.face f).line.frozen = false → Answers (.unfreeze cls key []) s .done [] s) ∧
    ((s.face f).line.frozen = true →
      ∃ t, Answers (.unfreeze cls key []) s .done [] t ∧
        t = { s with faces := t.faces } ∧ (∀ g, g ≠ f → t.face g = s.face g) ∧
        (∃ again, (t.face f).line.queue =
            (s.face f).line.queue.filter
                (fun q =>
                  match (s.bay? f q.bay).bind Bay.lastCommand with
                  | some .open | some .close => false
                  | some .hold | none => true) ++ again ∧
          ∀ q ∈ again, ∃ x, s.bay? f q.bay = some x ∧ (x.lastCommand = some .open ∨ x.lastCommand = some .close)) ∧
        t.face f =
          { ({ s.face f with line := { (s.face f).line with frozen := false, queue := (t.face f).line.queue } }.proved
              { (s.face f).fi.conditions with line := (s.face f).line.enabled }) with bays := (t.face f).bays } ∧
        (∀ b x, s.bay? f b = some x →
          t.bay? f b = some
            { x with
              deadline := x.deadline.map fun d =>
                if d.suspended then
                  ⟨d.kind, some (s.after (match d.kind with
                    | .unlock => (s.face f).config.unlockLimit
                    | .open => (s.face f).config.openLimit
                    | .close => (s.face f).config.closeLimit
                    | .warning => x.liveWarning.getD (s.face f).config.warning)), false⟩
                else d
              lastCommand :=
                if x.lastCommand = some .open ∧ s.openAllowed f b = false then some .hold else x.lastCommand } ∧
          (x.lastCommand = some .close → ⟨b, .close⟩ ∈ (t.face f).line.queue) ∧
          (x.lastCommand = some .open →
            ⟨b, if s.openAllowed f b = true then .open else .hold⟩ ∈ (t.face f).line.queue)))

/-- R180, R181: LINE_ENABLE and LINE_DISABLE. Enabling needs lists that cover the face; it takes the face's rate into use,
starts the list at position 1, tells FI, and sends a preamble at once, or once what is still going out has ended.
Disabling tells FI, and a transaction or window still open runs on with the line stopping. The model's choices: such a
transaction is outside any pass and the owed preamble is owed no more (log entry 15), the preamble of an enable waits for a
break (log entry 13), and one that must wait is held as owed (log entry 18). -/
def Obligations.LinesAreEnabledAndDisabled : Prop :=
  ∀ (s : State) (cls : Byte) (key : Key) (f : Face), s.takesRequests → faceOf key.k1 = some f →
    ((s.face f).line.enabled = true → Answers (.lineEnable cls key []) s .done [] s) ∧
    ((s.face f).line.enabled = false →
      ((∀ p, (s.face f).line.running = some p → s.covers f p = false) ∨
          (∃ q, (s.face f).line.staged = some q ∧ s.covers f q = false) →
        Answers (.lineEnable cls key []) s .conflict [] s) ∧
      ((∃ p, (s.face f).line.running = some p ∧ s.covers f p = true) →
          (∀ q, (s.face f).line.staged = some q → s.covers f q = true) →
        Answers (.lineEnable cls key []) s .done []
          (s.modFace f fun x : FaceState =>
            { x with
              line :=
                { x.line with
                  enabled := true, stopping := false, rate := x.config.rate, position := 1
                  signal :=
                    if x.line.tx.isNone ∧ x.line.late.isNone ∧ x.line.signal = LineSignal.none ∧ x.line.breakPending = false ∧
                        x.line.breakOwed = false then .preamble
                    else x.line.signal
                  preambleDue :=
                    !decide (x.line.tx.isNone ∧ x.line.late.isNone ∧ x.line.signal = LineSignal.none ∧
                      x.line.breakPending = false ∧ x.line.breakOwed = false) } }.proved
              { x.fi.conditions with line := !x.line.frozen }))) ∧
    ((s.face f).line.enabled = false → Answers (.lineDisable cls key []) s .done [] s) ∧
    ((s.face f).line.enabled = true →
      Answers (.lineDisable cls key []) s .done []
        (s.modFace f fun x : FaceState =>
          { x with
            line :=
              { x.line with
                enabled := false, stopping := x.line.tx.isSome || x.line.late.isSome, preambleDue := false
                tx := x.line.tx.map fun t : Transaction => { t with inPass := false } } }.proved
            { x.fi.conditions with line := false }))

/-- R159, R160, R161, R162, R163: every header ends in a check character that makes its characters sum to 0 modulo 256, and
goes out with BLDE asserted, 11 bit times to a character, the address character alone with marker bit 1. A header with a
response opens its window at its end with T_lim of its response length and the turnaround as it then stands, 17 to 210 bit
times over their ranges, and amending the turnaround leaves an open window as it is; a command header ends its transaction
and frees the line. That a header that is not being sent ends nothing is the model's choice (log entry 3). -/
def Obligations.HeadersOpenTheirWindows : Prop :=
  ((∀ cs : List Byte, charSum (withCheck256 cs) % 256 = 0 ∧ (withCheck256 cs).length = cs.length + 1) ∧
     (∀ (a : Nat) (fn : LineFunction) (w : Bool),
       checks256 (pollHeader a fn w) = true ∧ (pollHeader a fn w).length = if fn = .status ∧ a ≤ 32 then 4 else 3) ∧
     (∀ (bays : List Nat) (c : DoorCommand),
       checks256 (commandHeader bays c) = true ∧ (commandHeader bays c).length = if bays.length = 1 then 3 else 7) ∧
     (∀ c : LineChar, c.bits.length = 11 ∧ readLineChar c.bits = c) ∧
     ∀ (s : State) (f : Face) (t : Transaction), s.powered = true → (s.face f).line.signal = .none →
       (s.face f).line.tx = some t → t.window = none →
       s.blde f = true ∧ (∀ k, 11 * t.header.length ≤ k → s.bltx f k = true) ∧
         ∀ i j v b, t.header[i]? = some v → (LineChar.bits ⟨v, decide (i = 0), true⟩)[j]? = some b →
           s.bltx f (11 * i + j) = b) ∧
  (∀ r n : Nat, r ≤ 6 → n ≤ 63 →
    17 ≤ timeoutBits r n ∧ timeoutBits r n ≤ 210 ∧ 3 * (11 * (r + 1) + n) ≤ 2 * timeoutBits r n ∧
      2 * timeoutBits r n ≤ 3 * (11 * (r + 1) + n) + 1) ∧
    ∀ (s : State) (f : Face), s.powered = true →
      (∀ t, (s.face f).line.tx = some t → t.window = none → (s.face f).line.abandoning = false → t.cls ≠ .command →
        exec (.headerEnd f) s =
          .next (s.modFace f fun x : FaceState =>
            { x with
              line := { x.line with
                        tx := some { t with
                          window := some ⟨s.now,
                            timeoutBits (if t.function = .status ∧ t.address ≤ 32 then 6 else 4) x.config.turnaround⟩ } } })) ∧
      (∀ t, (s.face f).line.tx = some t → t.window = none → (s.face f).line.abandoning = false → t.cls = .command →
        ∃ u, exec (.headerEnd f) s = .next u ∧
          u = s.modFace f (fun x : FaceState => { x with line := (u.face f).line }) ∧
          (u.face f).line.nodes = (s.face f).line.nodes ∧ (u.face f).line.running = (s.face f).line.running ∧
          (u.face f).line.position = (s.face f).line.position ∧ (u.face f).line.stopping = false ∧
          ((s.face f).line.enabled = false ∨ (s.face f).line.breakPending = true →
            (u.face f).line = { (s.face f).line with tx := none, stopping := false }) ∧
          ((u.face f).line.tx = none ∨ ∃ v, (u.face f).line.tx = some v ∧ v.window = none ∧ v.received = [])) ∧
      ((s.face f).line.tx = none ∨ (∃ t, (s.face f).line.tx = some t ∧ t.window ≠ none) →
        exec (.headerEnd f) s = .next s) ∧
      ∀ (key : Key) (data : List Byte) (u : State), exec (.amendFace key 19#8 data) s = .next u →
        (u.face f).line = (s.face f).line

/-- R165, R177, R178: a stray character is counted and changes nothing else; a break that goes out ends the window and
abandons the transaction (a PASS one ends its slot); a preamble follows it; at the end of a preamble a disabled line is
idle. What finds nothing to act on changes nothing (log entry 3). A second break that waits goes out before the preamble,
and one preamble serves the break and an enable: the model's choices (log entry 18). -/
def Obligations.StraysAndSignals : Prop :=
  ∀ (s : State) (f : Face) (l : Line), s.powered = true → (s.face f).line = l →
    (l.tx = none → l.late = none → l.signal = .none →
      exec (.strayCharacter f) s =
        .next (s.modFace f fun x : FaceState => { x with line := { l with stray := if l.stray < 255 then l.stray + 1 else 255 } })) ∧
    (l.tx ≠ none ∨ l.late ≠ none ∨ l.signal ≠ .none → exec (.strayCharacter f) s = .next s) ∧
    (l.signal = .none → l.breakPending = true ∨ l.breakOwed = true →
      ∃ t, exec (.breakStart f) s = .next t ∧
        t = s.modFace f (fun x : FaceState =>
          { x with
            line := { l with
                      signal := .break, breakPending := false, breakOwed := false, stopping := false, abandoning := false
                      tx := none, late := none, nodes := (t.face f).line.nodes, passSlot := (t.face f).line.passSlot } }) ∧
        (∀ a, ((t.face f).line.node a).errors = (l.node a).errors ∧ ((t.face f).line.node a).link = (l.node a).link ∧
          ((t.face f).line.node a).run = (l.node a).run ∧ ((t.face f).line.node a).identity = (l.node a).identity) ∧
        (∀ u, l.tx = some u → u.cls ≠ .command → 1 ≤ u.address → u.address ≤ 36 →
          ((t.face f).line.node u.address).last = some ⟨.abandoned, s.now⟩) ∧
        (∀ u r, l.tx = some u → u.cls = .pass → l.passSlot = .inFlight r →
          (t.face f).line.passSlot = .ended r .abandoned []) ∧
        ((∀ u, l.tx = some u → u.cls ≠ .pass) → (t.face f).line.passSlot = l.passSlot)) ∧
    (l.signal ≠ .none ∨ (l.breakPending = false ∧ l.breakOwed = false) → exec (.breakStart f) s = .next s) ∧
    (l.signal = .break →
      exec (.breakEnd f) s =
        .next (s.modFace f fun x : FaceState =>
          { x with
            line := if l.breakPending = true ∨ l.breakOwed = true then { l with signal := .none }
                    else { l with signal := .preamble, preambleDue := false } })) ∧
    (l.signal ≠ .break → exec (.breakEnd f) s = .next s) ∧
    (l.signal = .preamble → l.enabled = false →
      exec (.preambleEnd f) s =
        .next (s.modFace f fun x : FaceState => { x with line := { l with signal := .none, stopping := false } })) ∧
    (l.signal ≠ .preamble → exec (.preambleEnd f) s = .next s)

/-- R175: the order in which the arbiter asks the classes other than COMMAND. -/
def arbiterOrder (x : FaceState) : List PollClass :=
  match x.config.arbiter, x.config.lowest with
  | .fixed, .pass => [.marker, .list, .pass]
  | .fixed, .list => [.marker, .pass, .list]
  | .fixed, .marker => [.list, .pass, .marker]
  | .rotate, _ => x.line.rotation

/-- R162, R173 to R176, R178, R182: what a line that has become free in `v` leaves. With the line disabled, a break to send
or a signal going out, none begins; a preamble that is owed goes out; else the arbiter begins the header of the first class
raised: COMMAND before all, with every entry that may go out gathered under the function of the oldest, an OPEN that R76 no
longer admits as HOLD; then MARKER, LIST at the list position, and PASS in the order of the discipline. -/
def lineServed (v u : State) (f : Face) : Prop :=
  ∀ (l free : Line) (queue : List QueuedCommand), (v.face f).line = l → free = { l with stopping := false } →
    queue = l.queue.map (fun q =>
      if q.command = .open ∧ ¬(q.bay ∈ v.mask f ∨ (v.face f).fi.mode = .maintenance) then { q with command := .hold } else q) →
    (l.enabled = false ∨ l.breakPending = true ∨ l.breakOwed = true ∨ l.signal ≠ .none →
      u = v.modFace f fun x : FaceState => { x with line := free }) ∧
    (l.enabled = true → l.breakPending = false → l.breakOwed = false → l.signal = .none →
      (l.preambleDue = true →
        u = v.modFace f fun x : FaceState => { x with line := { free with signal := .preamble, preambleDue := false } }) ∧
      (l.preambleDue = false →
        ((∃ q ∈ l.queue, l.frozen = false ∨ q.command = .hold) →
          ∃ c bays,
            u = v.modFace f (fun x : FaceState =>
              { x with
                line :=
                  { free with
                    queue := queue.filter fun q => !(decide (q.command = c))
                    tx := some
                      { cls := .command
                        address := if bays.length = 1 then bays.headD 0 else 0
                        function := c.line, bays := bays, header := commandHeader bays c, window := none
                        received := [], inPass := false } } }) ∧
            bays = (queue.filter fun q => decide (q.command = c)).map QueuedCommand.bay ∧ bays ≠ [] ∧
            (l.frozen = true → c = .hold) ∧
            (l.frozen = false → (queue.head?.map QueuedCommand.command) = some c)) ∧
        ((∀ q ∈ l.queue, l.frozen = true ∧ q.command ≠ .hold) →
          (∀ c before after, arbiterOrder (v.face f) = before ++ c :: after → c ∉ before →
            (∀ d ∈ before, raised v f d = false) → raised v f c = true →
            ∀ rotated, rotated =
                (match (v.face f).config.arbiter with
                  | .fixed => l.rotation
                  | .rotate => (l.rotation.filter fun d => d != c) ++ [c]) →
              match c with
              | .marker =>
                  u = v.modFace f fun x : FaceState =>
                    { x with
                      line :=
                        { free with
                          rotation := rotated
                          tx := some
                            { cls := .marker, address := markerAddress x.au.nextMarker, function := .status, bays := []
                              header := withCheck256 [chr (markerAddress x.au.nextMarker), LineFunction.wire .status]
                              window := none, received := [], inPass := true } } }
              | .list =>
                  ∀ p e, l.running = some p → p.entries[l.position - 1]? = some e →
                    u = v.modFace f fun x : FaceState =>
                      { x with
                        line :=
                          { free with
                            rotation := rotated
                            tx := some
                              { cls := .list, address := e.address, function := e.function.line, bays := []
                                header := pollHeader e.address e.function.line (v.warningOn f e.address)
                                window := none, received := [], inPass := true } } }
              | .pass =>
                  ∀ r, l.passSlot = .waiting r →
                    u = v.modFace f fun x : FaceState =>
                      { x with
                        line :=
                          { free with
                            rotation := rotated, passSlot := .inFlight r
                            tx := some
                              { cls := .pass, address := r.address, function := r.function.line, bays := []
                                header := pollHeader r.address r.function.line (v.warningOn f r.address)
                                window := none, received := [], inPass := true } } }) ∧
          ((∀ c ∈ arbiterOrder (v.face f), raised v f c = false) →
            u = v.modFace f fun x : FaceState => { x with line := free }))))

/-- The end of a transaction that closes its window, `o` its outcome: the records take what `State.transactionEnded` says,
the line being in flight with nothing, and then the line is free. Between the two only the commands, a freeze and the pass
result that the transaction itself brings have changed the line besides. -/
def endsFree (s u : State) (f : Face) (t : Transaction) (o : TxOutcome) (data : List Byte) : Prop :=
  ∃ v, s.transactionEnded v f t o data ∧ lineServed v u f ∧
    (let l := (s.face f).line
     let l' := (v.face f).line
     l'.tx = none ∧ l'.late = l.late ∧ l'.abandoning = l.abandoning ∧ l'.rotation = l.rotation ∧
       l'.signal = l.signal ∧ l'.breakOwed = l.breakOwed ∧
       l'.preambleDue = l.preambleDue ∧ (t.cls ≠ .pass → l'.passSlot = l.passSlot) ∧
       (o ≠ .success ∨ t.function ≠ .status ∨ t.cls = .pass →
         l'.frozen = l.frozen ∧ l'.breakPending = l.breakPending ∧
           ((l.node t.address).losesLink t o = false → l'.queue = l.queue)))

/-- R184, R162: the character in progress at a restart has ended at the time `now`: the transaction `t` of `s` is abandoned,
its node's link health untouched and the pass slot, which the restart has ended, too, and the line is free. -/
def abandonedFree (now : Time) (s u : State) (f : Face) (t : Transaction) : Prop :=
  let l := (s.face f).line
  ∃ nodes : Vector Node 36,
    lineServed
      (s.modFace f fun x : FaceState =>
        { x with line := { l with tx := none, late := none, stopping := false, abandoning := false, nodes := nodes } }) u f ∧
      ∀ a, 1 ≤ a → a ≤ 36 →
        ({ l with nodes := nodes } : Line).node a =
          if t.cls ≠ .command ∧ t.address = a then { l.node a with last := some ⟨.abandoned, now⟩ } else l.node a

/-- R159, R161, R162, R164 to R169, R173, R182, R184: the end of a response transaction. The (R + 1)th character decides success
or CHECK by the sum of all of them, a character with a fault ends it FRAMING or LENGTH and, unless it is the (R + 1)th,
leaves its window open, and the timeout ends it TIMEOUT; a window left open closes at its (R + 1)th character or at the
timeout, without a second outcome. Where the window closes with the outcome, the line is free and the arbiter chooses (R162,
R175). A transaction that a restart abandons ends, abandoned, with the character in progress, whichever event or
millisecond that ends in (log entry 34). What finds no window changes nothing (log entry 3). That a transaction outside any
pass moves no position is read from R173 and R181 (log entry 15), that the IDENT response of a PASS transaction is stored as the
node's identity is log entry 16, and how characters come to BLRX in a millisecond is log entry 17. -/
def Obligations.TransactionsEndWithOneOutcome : Prop :=
  ∀ (s : State) (f : Face), s.powered = true →
    (∀ t w, (s.face f).line.tx = some t → t.window = some w → (s.face f).line.abandoning = false → t.cls ≠ .command →
      1 ≤ t.address → t.address ≤ 36 →
      (∀ chars r, r = (if t.function = .status ∧ t.address ≤ 32 then 6 else 4) →
        (chars.length = r + 1 →
          ∃ u, exec (.responseComplete f chars) s = .next u ∧ (u.face f).line.tx ≠ some t ∧
            (charSum chars % 256 = 0 →
              s.transactionEnded u f t .success (chars.take r) ∧ endsFree s u f t .success (chars.take r)) ∧
            (charSum chars % 256 ≠ 0 → s.transactionEnded u f t .check [] ∧ endsFree s u f t .check [])) ∧
        (chars.length ≠ r + 1 → exec (.responseComplete f chars) s = .next s)) ∧
      (∀ stopBit marker r, stopBit = false ∨ marker = true →
        r = (if t.function = .status ∧ t.address ≤ 32 then 6 else 4) →
        ∃ u, exec (.responseCharacterFault f stopBit marker) s = .next u ∧
          s.transactionEnded u f t (if stopBit = true then .length else .framing) [] ∧
          (t.received.length < r →
            (u.face f).line.tx = none ∧ (u.face f).line.late = some ⟨w, r + 1, t.received.length + 1⟩) ∧
          (r ≤ t.received.length →
            (u.face f).line.tx ≠ some t ∧ (u.face f).line.late = (s.face f).line.late ∧
              endsFree s u f t (if stopBit = true then .length else .framing) [])) ∧
      exec (.responseCharacterFault f true false) s = .next s ∧
      ∃ u, exec (.transactionTimeout f) s = .next u ∧ (u.face f).line.tx ≠ some t ∧
        s.transactionEnded u f t .timeout [] ∧ endsFree s u f t .timeout []) ∧
    ((s.face f).line.tx = none →
      exec (.responseCharacterFault f true false) s = .next s ∧
      ((s.face f).line.late = none →
        (∀ stopBit marker, exec (.responseCharacterFault f stopBit marker) s = .next s) ∧
          (∀ chars, exec (.responseComplete f chars) s = .next s) ∧ exec (.transactionTimeout f) s = .next s) ∧
      ∀ w, (s.face f).line.late = some w →
        (∀ chars, chars.length ≠ w.size → exec (.responseComplete f chars) s = .next s) ∧
        (w.arrived + 1 < w.size → ∀ stopBit marker, stopBit = false ∨ marker = true →
          exec (.responseCharacterFault f stopBit marker) s =
            .next (s.modFace f fun x : FaceState =>
              { x with line := { x.line with late := some { w with arrived := w.arrived + 1 } } })) ∧
        ∃ u, (∀ chars, chars.length = w.size → exec (.responseComplete f chars) s = .next u) ∧
          (w.size ≤ w.arrived + 1 → ∀ stopBit marker, stopBit = false ∨ marker = true →
            exec (.responseCharacterFault f stopBit marker) s = .next u) ∧
          exec (.transactionTimeout f) s = .next u ∧
          (u.face f).line.late = none ∧ (u.face f).line.nodes = (s.face f).line.nodes ∧
          (u.face f).line.stopping = false ∧
          u = s.modFace f (fun x : FaceState => { x with line := (u.face f).line })) ∧
    ((s.face f).line.abandoning = true → ∀ t, (s.face f).line.tx = some t → (s.face f).line.addressed →
      (∀ r, (s.face f).line.passSlot ≠ .inFlight r) →
      (t.window = none → ∃ u, exec (.headerEnd f) s = .next u ∧ abandonedFree s.now s u f t) ∧
      (t.window ≠ none →
        (∃ u, abandonedFree s.now s u f t ∧
          (∀ chars, chars.length = (if t.function = .status ∧ t.address ≤ 32 then 7 else 5) →
            exec (.responseComplete f chars) s = .next u) ∧
          ∀ stopBit marker, stopBit = false ∨ marker = true →
            exec (.responseCharacterFault f stopBit marker) s = .next u) ∧
        exec (.transactionTimeout f) s = .next s) ∧
      (s.pending = [] → (s.face f).blrx.length ≤ 1 →
        ∃ v u, step s = .next v ∧ abandonedFree v.now s u f t ∧ (v.face f).line = (u.face f).line ∧
          (v.face f).blrx = [] ∧ (t.window ≠ none → Instr.strayCharacter f ∉ v.pending))) ∧
    (s.pending = [] → (s.face f).line.abandoning = false → ∀ c, (s.face f).blrx = [c] →
      ∃ t, step s = .next t ∧ (t.face f).blrx = [] ∧ s.receivesLine f c t) ∧
    ∀ t, (s.face f).line.tx = some t → t.window = none →
      (∀ chars, exec (.responseComplete f chars) s = .next s) ∧
        (∀ stopBit marker, exec (.responseCharacterFault f stopBit marker) s = .next s) ∧
        exec (.transactionTimeout f) s = .next s

/-- R39, R47, R48, R49, R62, R71: what the berth makes of the fusion that a marker reading has brought. Without a confirmed
head position, and in VACANT, ANNOUNCED and REPOSITION, nothing; a STANDING berth takes the alignment at the head; a stood
train whose head lies further than A from h_used has moved: ALIGNED returns to ANNOUNCED, OPEN_SERVICE and CLOSING are
marked moved and the face freezes, once, and SECURED goes VACANT as an unannounced departure. -/
def fusionTaken (s u : State) (f : Face) : Prop :=
  let b := (s.face f).berth
  let b' := (u.face f).berth
  ((u.face f).au.fusion.head = none ∨ b.state = .vacant ∨ b.state = .announced ∨ b.state = .reposition → b' = b) ∧
    ∀ h, (u.face f).au.fusion.head = some h →
      (b.state = .standing →
        (computeAlignment s f h = none → b' = b) ∧
        (∀ q, computeAlignment s f h = some (.aligned q) →
          b' = { b with state := .aligned, snapshot := some q, positionWait := none } ∧
            u.latched f .berthChange = true ∧ (q.quality ≠ .full → u.latched f .maskPartial = true)) ∧
        ∀ c e, computeAlignment s f h = some (.reposition c e) →
          b' = { b with state := .reposition, cause := some c, refusedError := some e, positionWait := none } ∧
            u.latched f .berthChange = true) ∧
      ∀ q, b.snapshot = some q →
        (b.state = .aligned ∨ b.state = .openService ∨ b.state = .closing ∨ b.state = .secured →
          (h - q.hUsed).natAbs ≤ (s.face f).config.agreement → b' = b) ∧
        ((s.face f).config.agreement < (h - q.hUsed).natAbs →
          (b.state = .aligned →
            b' = { b with
                   state := .announced, standstill := false, ht := none, snapshot := none, cause := none
                   refusedError := none, positionWait := none } ∧
              u.latched f .trainMoved = true ∧ u.latched f .berthChange = true ∧
              ∀ c x, s.bay? f c = some x → u.bay? f c = some (s.unmasked f x)) ∧
          (b.state = .openService ∨ b.state = .closing →
            b' = { b with moved := true } ∧
              (b.moved = false →
                u.latched f .trainMoved = true ∧ (u.face f).line.frozen = true ∧
                  ((s.face f).line.frozen = false →
                    (u.face f).line.breakPending = true ∧
                      (u.face f).bays = (s.face f).bays.map fun x =>
                        { x with deadline := x.deadline.map fun d => { d with suspended := true } }))) ∧
          (b.state = .secured →
            b' = b.vacated ∧ u.profiles = (releaseReference f s).profiles ∧ u.latched f .departUnannounced = true ∧
              u.latched f .berthChange = true ∧ ∀ c x, s.bay? f c = some x → u.bay? f c = some (s.unmasked f x)))

/-- R141, R142: a census that a step from `s` to `t` ends: a pass end was seen before, or the transaction in flight is the
last of a pass; and every enrolled bay is surveyed. -/
def censusOver (s t : State) (f : Face) : Prop :=
  ((s.face f).fi.censusPass = true ∨
      ∃ x p, (s.face f).line.tx = some x ∧ x.cls = .list ∧ x.inPass = true ∧ (s.face f).line.running = some p ∧
        p.entries.length ≤ (s.face f).line.position) ∧
    ∀ x ∈ (t.face f).bays, x.isolated = true ∨ x.state ≠ .unknown ∨ ((t.face f).line.node x.num).link = .lost

/-- R54, R59, R62, R71, R141, R142, R149: a success hands on its response: a marker's reading is stored and fused while its
node is within reach, other markers' readings stay, and the berth takes the fusion. The LIST transaction that ends a pass in
STARTING, whatever its outcome and its function, no request pending, ends the census with NORMAL or, the key ON, MANUAL where
every enrolled bay is surveyed, and is remembered where not; in EVACUATION with stored mode STARTING it is the stored mode
that the census ends. A face leaves STARTING by its census alone, but for MAINTENANCE and EVACUATION, at whatever event ends
it, and only with a pass seen and every bay surveyed; that none is left in STARTING, its pass seen and every bay surveyed, is
the invariant of the census. -/
def Obligations.ReadingsAreFusedAndTheCensusEnds : Prop :=
  (∀ s t : State, step s = .next t → ∀ (f : Face) (byKey : Mode),
    byKey = (if (s.face f).fi.keyOn = true then Mode.manual else .normal) →
    ((s.face f).fi.mode = .starting → (t.face f).fi.mode ≠ .starting →
      (t.face f).fi.mode = .maintenance ∨ (t.face f).fi.mode = .evacuation ∨
        ((t.face f).fi.mode = byKey ∧ t.latched f .modeDone = true ∧ censusOver s t f)) ∧
    ((s.face f).fi.mode = .evacuation → (s.face f).fi.stored = some .starting → (t.face f).fi.mode = .evacuation →
      (t.face f).fi.stored ≠ some .starting →
      (t.face f).fi.stored = some byKey ∧ t.latched f .modeDone = true ∧ censusOver s t f)) ∧
  ∀ (s : State) (f : Face) (t : Transaction) (w : Window), s.powered = true →
    (s.face f).line.tx = some t → t.window = some w → (s.face f).line.abandoning = false → 1 ≤ t.address →
    t.address ≤ 36 →
    (∀ k chars, t.function = .status → charSum chars % 256 = 0 → chars.length = 5 → t.polled = true →
      markerAt? t.address = some k → (((s.face f).line.node t.address).after true).link ≠ .lost →
      ∃ u, exec (.responseComplete f chars) s = .next u ∧
        (u.face f).au.readings =
          (s.face f).au.readings.set k
            (some ⟨(readMarkerResponse (chars.take 4)).1, (readMarkerResponse (chars.take 4)).2, s.now⟩) ∧
        (u.face f).au.fusion =
          fuse (s.modAu f fun a => { a with readings := (u.face f).au.readings }) f ∧ fusionTaken s u f) ∧
    (∀ p byKey c, t.cls = .list → t.inPass = true → (s.face f).line.running = some p →
      p.entries.length ≤ (s.face f).line.position → (s.face f).fi.request = none →
      byKey = (if (s.face f).fi.keyOn = true then Mode.manual else .normal) →
      c = .transactionTimeout f ∨
        (∃ chars, c = .responseComplete f chars ∧
          chars.length = if t.function = .status ∧ t.address ≤ 32 then 7 else 5) ∨
        (∃ stopBit marker, c = .responseCharacterFault f stopBit marker ∧ (stopBit = false ∨ marker = true)) →
      ∃ u, exec c s = .next u ∧
        ((∀ x ∈ (u.face f).bays,
            x.isolated = true ∨ x.state ≠ .unknown ∨ ((u.face f).line.node x.num).link = .lost) →
          ((s.face f).fi.mode = .starting → (u.face f).fi.mode = byKey ∧ u.latched f .modeDone = true) ∧
          ((s.face f).fi.mode = .evacuation → (s.face f).fi.stored = some .starting →
            (u.face f).fi.mode = .evacuation ∧ (u.face f).fi.stored = some byKey ∧ u.latched f .modeDone = true)) ∧
        ((∃ x ∈ (u.face f).bays,
            x.isolated = false ∧ x.state = .unknown ∧ ((u.face f).line.node x.num).link ≠ .lost) →
          ((s.face f).fi.mode = .starting → (u.face f).fi.mode = .starting ∧ (u.face f).fi.censusPass = true) ∧
          ((s.face f).fi.mode = .evacuation → (s.face f).fi.stored = some .starting →
            (u.face f).fi.mode = .evacuation ∧ (u.face f).fi.stored = some .starting ∧
              (u.face f).fi.censusPass = true)))

/-- R167, R168: link health: a node record after a LIST or MARKER transaction. A failure adds 3 to the count, which stays
at 31; a success takes 1 off it unless the node is LOST, and it stays at 0; the state follows from the count; the eighth
success in a row restores a LOST node. Every step keeps every count in 0 to 31 with its state and its run. -/
def Obligations.LinkHealthIsKept : Prop :=
  (∀ n : Node,
      (n.link ≠ .lost → ∀ ok c, c = (if ok = true then n.errors - 1 else min 31 (n.errors + 3)) →
        n.after ok =
          { n with
            errors := c, run := 0, link := if 24 ≤ c then .lost else if 12 ≤ c then .marginal else .linked }) ∧
      (n.link = .lost →
        n.after false = { n with errors := min 31 (n.errors + 3), run := 0 } ∧
          (n.run < 7 → n.after true = { n with run := n.run + 1 }) ∧
          (7 ≤ n.run → n.after true = { n with errors := 0, run := 0, link := .linked }))) ∧
    ∀ s t : State, LinkHealthKept s → step s = .next t → LinkHealthKept t

/-- R160, R162, R173 to R176, R178: the arbitration, at each of its three places: at the end of a preamble, the list starting
at position 1 on an enabled line; at the end of a command header; and at the close of a window whose outcome was decided
earlier, by its last character or by the timeout. The fourth, at the end of a transaction that closes its window, is stated
with it. -/
def Obligations.TheArbiterServesTheFirstRaisedClass : Prop :=
  ∀ (s : State) (f : Face) (l : Line), s.powered = true → (s.face f).line = l →
    (l.signal = .preamble → l.tx = none →
      ∃ u, exec (.preambleEnd f) s = .next u ∧
        lineServed (s.modFace f fun x : FaceState =>
          { x with line := { l with signal := .none, position := if l.enabled = true then 1 else l.position } }) u f) ∧
    (∀ t, l.tx = some t → t.window = none → l.abandoning = false → t.cls = .command →
      ∃ u, exec (.headerEnd f) s = .next u ∧
        lineServed (s.modFace f fun x : FaceState => { x with line := { l with tx := none } }) u f) ∧
    ∀ w, l.tx = none → l.late = some w →
      ∃ u, exec (.transactionTimeout f) s = .next u ∧
        (∀ chars, chars.length = w.size → exec (.responseComplete f chars) s = .next u) ∧
        (w.size ≤ w.arrived + 1 → ∀ stopBit marker, stopBit = false ∨ marker = true →
          exec (.responseCharacterFault f stopBit marker) s = .next u) ∧
        lineServed (s.modFace f fun x : FaceState => { x with line := { l with late := none } }) u f

/-! ### Modes, the panel and proving -/

/-- R143 to R146, R152, R83: SET_MODE of one of its targets: the refusals; or the pending request abandoned, and then the
mode taken at once, MAINTENANCE where the berth is VACANT and every bay secure, or the request for it stored with its
deadline. Leaving MAINTENANCE starts the warning of every bay that is OPEN. The deadline's expiry abandons the request. The
codes of the targets, NORMAL 1, MANUAL 2 and MAINTENANCE 4, and of the answer, TAKEN 0 and PENDING 1, are log entry
12's. -/
def Obligations.SetModeIsTakenOrWaits : Prop :=
  (∀ (s : State) (cls : Byte) (key : Key) (data : List Byte) (f : Face) (v : Nat), s.takesRequests →
    faceOf key.k1 = some f → readEnum data = some v →
    (v ≠ 1 → v ≠ 2 → v ≠ 4 → Answers (.setMode cls key data) s .outOfRange [] s) ∧
    ∀ m, (v = 1 ∧ m = .normal) ∨ (v = 2 ∧ m = .manual) ∨ (v = 4 ∧ m = .maintenance) →
      ((s.face f).fi.mode = .evacuation ∨ ((s.face f).fi.mode = .starting ∧ m ≠ .maintenance) →
        Answers (.setMode cls key data) s .wrongMode [] s) ∧
      ((s.face f).fi.mode ≠ .evacuation → ((s.face f).fi.mode = .starting → m = .maintenance) →
        ∃ t, Answers (.setMode cls key data) s (if (s.face f).fi.request.isSome then .abandoned else .done)
            [if (t.face f).fi.mode = m then 0#8 else 1#8] t ∧
          ((s.face f).fi.request.isSome = true → t.latched f .modeAbandoned = true) ∧ s.elsewhere f t ∧
          (s.face f).fixed (t.face f) ∧ (t.face f).fi.keyOn = (s.face f).fi.keyOn ∧
          (t.face f).fi.stored = (s.face f).fi.stored ∧ (t.face f).fi.censusPass = (s.face f).fi.censusPass ∧
          (m = (s.face f).fi.mode →
            t = (if (s.face f).fi.request.isSome then s.latch f .modeAbandoned else s).modFi f fun x =>
              { x with request := none }) ∧
          (m = .maintenance → (s.face f).fi.mode ≠ .maintenance →
            (t.face f).bays = (s.face f).bays ∧ (t.face f).berth = (s.face f).berth ∧
              ((s.face f).berth.state = .vacant ∧ (∀ x ∈ (s.face f).bays, x.secure = true) →
                (t.face f).fi.mode = .maintenance ∧ (t.face f).fi.request = none ∧ (t.face f).fi.proving = false ∧
                  t.latched f .modeDone = true) ∧
              ((s.face f).berth.state ≠ .vacant ∨ (∃ x ∈ (s.face f).bays, x.secure = false) →
                (t.face f).fi.mode = (s.face f).fi.mode ∧
                  (t.face f).fi.request = some ⟨s.now, s.after (s.face f).config.modeTransition⟩ ∧
                  (t.face f).fi.proving = (s.face f).fi.proving)) ∧
          (m ≠ .maintenance → m ≠ (s.face f).fi.mode →
            (t.face f).fi.mode = m ∧ (t.face f).fi.request = none ∧ (t.face f).fi.conditions.mode = true ∧
              t.latched f .modeDone = true ∧
              ((s.face f).fi.mode ≠ .maintenance → (t.face f).bays = (s.face f).bays) ∧
              ((s.face f).fi.mode = .maintenance → ∀ b x, s.bay? f b = some x →
                t.bay? f b = some (if x.state = .open then s.warned f x else x))))) ∧
  ∀ (s : State) (f : Face), s.powered = true →
    (∀ r, (s.face f).fi.request = some r →
      (s.reached r.due = true → exec (.modeTransitionExpiry f) s =
        .next ((s.latch f .modeAbandoned).modFi f fun x => { x with request := none })) ∧
      (s.reached r.due = false → exec (.modeTransitionExpiry f) s = .next s)) ∧
    ((s.face f).fi.request = none → exec (.modeTransitionExpiry f) s = .next s)

/-- R147, R148, R149, R130: the panel key is a request in NORMAL and MANUAL only, replaces one that is pending, and in
EVACUATION sets a stored mode of NORMAL or MANUAL. EVAC asserted puts every face in EVACUATION with its mode stored and
its request abandoned, and activates the STATION_EVAC record, which brings the bays not covered before to RELEASED; EVAC
deasserted gives every face its stored mode back and leaves the record QUIESCENT and the bays as they are. The commands given
join each queue in ascending order of the bays (log entry 28). A level that stands is no change (log entry 20). The release list is one that
the steps keep (R122, R123). -/
def Obligations.KeyAndEvacMoveTheModes : Prop :=
  (∀ (s : State) (f : Face) (on : Bool), s.powered = true →
    (on = (s.face f).fi.keyOn → exec (.pkeyChange f on) s = .next s) ∧
    (on ≠ (s.face f).fi.keyOn →
      ∃ t, exec (.pkeyChange f on) s = .next t ∧ (t.face f).pkey = .start on ∧ (t.face f).fi.keyOn = on ∧
        t = s.modFace f (fun x : FaceState => { x with pkey := .start on, fi := (t.face f).fi, attn := (t.face f).attn }) ∧
        ((s.face f).fi.mode = .normal → on = true →
          (t.face f).fi.mode = .manual ∧ (t.face f).fi.request = none ∧ t.latched f .modeDone = true ∧
            ((s.face f).fi.request.isSome = true → t.latched f .modeAbandoned = true)) ∧
        ((s.face f).fi.mode = .manual → on = false →
          (t.face f).fi.mode = .normal ∧ (t.face f).fi.request = none ∧ t.latched f .modeDone = true ∧
            ((s.face f).fi.request.isSome = true → t.latched f .modeAbandoned = true)) ∧
        ((s.face f).fi.mode = .evacuation →
          (s.face f).fi.stored = some .normal ∨ (s.face f).fi.stored = some .manual →
          (t.face f).fi =
            { (s.face f).fi with keyOn := on, stored := some (if on = true then .manual else .normal) }) ∧
        ((s.face f).fi.mode = .starting ∨ (s.face f).fi.mode = .maintenance ∨
            ((s.face f).fi.mode = .normal ∧ on = false) ∨ ((s.face f).fi.mode = .manual ∧ on = true) ∨
            ((s.face f).fi.mode = .evacuation ∧ (s.face f).fi.stored ≠ some .normal ∧
              (s.face f).fi.stored ≠ some .manual) →
          (t.face f).fi = { (s.face f).fi with keyOn := on } ∧ (t.face f).attn = (s.face f).attn))) ∧
  ∀ s : State, s.powered = true → ReleaseListKept s →
    (s.evac.taken = true → exec .evacAsserted s = .next s) ∧
    (s.evac.taken = false →
      exec .evacDeasserted s = .next s ∧
        ∃ t, exec .evacAsserted s = .next t ∧ t.evac = .start true ∧
          activated s t .stationEvac (decide (s.releases.length < 32)) ∧
          (∀ k, k ≠ .stationEvac → t.releaseOf k = s.releaseOf k) ∧
          releaseEvent s.now .stationEvac true s.releases t.releases s.nextTag t.nextTag ∧
          (s.releaseOf .stationEvac = none → 32 ≤ s.releases.length →
            ∀ f, (t.face f).releaseOverflow = true ∧ t.latched f .releaseOverflow = true) ∧
          ∀ f,
            ((s.face f).fi.mode ≠ .evacuation →
              (t.face f).fi.mode = .evacuation ∧ (t.face f).fi.request = none ∧
                ((s.face f).fi.mode ≠ .starting ∨ (s.face f).fi.censusPass = false ∨ s.surveyed f = false →
                  (t.face f).fi.stored = some (s.face f).fi.mode) ∧ (t.face f).fi.proving = false ∧ t.latched f .modeDone = true ∧
                ((s.face f).fi.request.isSome = true → t.latched f .modeAbandoned = true)) ∧
            (s.face f).fixed (t.face f) ∧ s.handsOver f (s.bayNums f) t ∧
            (s.releaseOf .stationEvac = none →
              t.openingRelease f = true ∧
                ∀ b x, s.bay? f b = some x → s.coverage f b = .none → x.state ≠ .released → x.state ≠ .unknown →
                  x.state ≠ .faulted → x.state ≠ .isolated →
                  t.bay? f b = some
                    { x with
                      state := .released, deadline := none, liveWarning := none, reopens := 0
                      lastCommand := some (if b ∈ s.mask f then .open else .hold) }) ∧
            (s.releaseOf .stationEvac = none → ∀ b x, s.bay? f b = some x → x.state = .released →
              t.bay? f b = some (s.covered f x .opening))) ∧
    (s.evac.taken = true →
      ∃ t, exec .evacDeasserted s = .next t ∧ t.evac = .start false ∧ quiesced s t .stationEvac ∧
        releaseEvent s.now .stationEvac false s.releases t.releases s.nextTag t.nextTag ∧
        t.releases.length = s.releases.length ∧
        t = { s with evac := t.evac, releases := t.releases, faces := t.faces } ∧
        ∀ f,
          t.face f = { s.face f with fi := (t.face f).fi, attn := (t.face f).attn } ∧
          (∀ m, (s.face f).fi.mode = .evacuation → (s.face f).fi.stored = some m →
            (t.face f).fi.mode = m ∧ (t.face f).fi.stored = none ∧ t.latched f .modeDone = true) ∧
          ((s.face f).fi.mode ≠ .evacuation → (t.face f).fi = (s.face f).fi))

/-- R150, R151, R52, R89: the panel's buttons act in MANUAL only. POPEN opens the mask of a berth that may be opened, as
an OPEN_REQUEST would; PCLOSE starts the warning of every bay that is open or opening, not covered and not isolated, and
moves an OPEN_SERVICE berth to CLOSING or SECURED. What is refused latches PANEL_REFUSED and moves nothing. A press acts
whatever level was last taken, and leaves the button taken as pressed: the model's choice (log entry 21). The commands given
join the queue in ascending order of the bays (log entry 28). -/
def Obligations.PanelButtonsActInManual : Prop :=
  ∀ (s : State) (f : Face), s.powered = true →
    ((s.face f).fi.mode ≠ .manual ∨ (s.face f).berth.state.opens = false ∨ (s.face f).berth.standstill = false ∨
        (s.face f).berth.moved = true →
      exec (.popenPress f) s =
        .next ((s.latch f .panelRefused).modFace f fun x : FaceState => { x with popen := .start true })) ∧
    ((s.face f).fi.mode ≠ .manual →
      exec (.pclosePress f) s =
        .next ((s.latch f .panelRefused).modFace f fun x : FaceState => { x with pclose := .start true })) ∧
    ((s.face f).fi.mode = .manual → (s.face f).berth.standstill = true → (s.face f).berth.moved = false →
      ((s.face f).berth.state = .openService →
        exec (.popenPress f) s = .next (s.modFace f fun x : FaceState => { x with popen := .start true })) ∧
      ((s.face f).berth.state = .aligned ∨ (s.face f).berth.state = .closing ∨ (s.face f).berth.state = .secured →
        ∃ t, exec (.popenPress f) s = .next t ∧ (t.face f).popen = .start true ∧
          (t.face f).berth = { (s.face f).berth with state := .openService } ∧
          (∀ b ∈ s.mask f, ∀ x, s.bay? f b = some x → t.bay? f b = some (s.opened f x)) ∧
          (∀ b, b ∉ s.mask f → t.bay? f b = s.bay? f b) ∧ s.handsOver f (s.mask f) t ∧ s.elsewhere f t ∧
          ({ s.face f with popen := .start true } : FaceState).fixed (t.face f) ∧
          (s.face f).fi.onlySecure (t.face f).fi ∧ t.latched f .berthChange = true ∧
          s.latchesOnly f [.berthChange, .entrapment, .provingChange] t)) ∧
    ((s.face f).fi.mode = .manual →
      ∃ t, exec (.pclosePress f) s = .next t ∧ (t.face f).pclose = .start true ∧ s.elsewhere f t ∧
        ({ s.face f with pclose := .start true } : FaceState).fixed (t.face f) ∧
        (t.face f).line = (s.face f).line ∧
        (∀ b x, s.bay? f b = some x →
          t.bay? f b = some
            (if (s.coverage f b = .none ∧ x.isolated = false ∧
                  (x.state = .open ∨ x.state = .unlocking ∨ x.state = .opening ∨ x.state = .reopening ∨
                    x.state = .heldOpen)) ∨
                ((s.face f).berth.state = .openService ∧ b ∈ s.mask f ∧ x.state = .open)
             then s.warned f x else x)) ∧
        ((s.face f).berth.state = .openService →
          (t.face f).berth =
            { (s.face f).berth with state := if s.maskLocked f = true then .secured else .closing }) ∧
        ((s.face f).berth.state ≠ .openService → (s.face f).berth.state ≠ .secured →
          (t.face f).berth = (s.face f).berth))

/-! ### Doors -/

/-- R92, R93, R97: ISOLATE_BAY, RESTORE_BAY, OPEN_BAY and CLOSE_BAY: the ordered refusals, or the bay's new record. Other
bays and the rest of the part stay, but for what a change of bay state brings at its own berth and interlock. -/
def Obligations.BayOrdersMoveOneBay : Prop :=
  ∀ (s : State) (cls : Byte) (key : Key) (f : Face), s.takesRequests → faceOf key.k1 = some f →
    (s.bay? f key.k2.toNat = none →
      Answers (.isolateBay cls key []) s .noRecord [] s ∧ Answers (.restoreBay cls key []) s .noRecord [] s) ∧
    ((s.face f).fi.mode ≠ .maintenance →
      Answers (.openBay cls key []) s .wrongMode [] s ∧ Answers (.closeBay cls key []) s .wrongMode [] s) ∧
    ((s.face f).fi.mode = .maintenance → s.bay? f key.k2.toNat = none →
      Answers (.openBay cls key []) s .noRecord [] s ∧ Answers (.closeBay cls key []) s .noRecord [] s) ∧
    ∀ x, s.bay? f key.k2.toNat = some x →
      (∃ t, Answers (.isolateBay cls key []) s .done [] t ∧
        t.bay? f key.k2.toNat =
          some { x with
            state := .isolated, isolated := true, restorePending := false, deadline := none, liveWarning := none
            reopens := 0, lastCommand := some .hold } ∧
        (t.face f).line = (s.face f).line.commanded key.k2.toNat .hold ∧ s.otherBays f key.k2.toNat t ∧
        s.elsewhere f t ∧ (s.face f).fixed (t.face f)) ∧
      (x.state ≠ .faulted → x.state ≠ .isolated → x.isolated = false →
        Answers (.restoreBay cls key []) s .conflict [] s) ∧
      (x.state = .faulted ∨ x.state = .isolated ∨ x.isolated = true →
        ∃ t, Answers (.restoreBay cls key []) s .done [] t ∧
          t.bay? f key.k2.toNat =
            some { x with isolated := false, restorePending := if x.state = .unknown then x.restorePending else true } ∧
          (t.face f).line = (s.face f).line ∧ (t.face f).berth = (s.face f).berth ∧ s.otherBays f key.k2.toNat t ∧
          s.elsewhere f t ∧ (s.face f).fixed (t.face f)) ∧
      ((s.face f).fi.mode = .maintenance →
        (x.state = .unknown ∨ x.state = .faulted ∨ x.state = .isolated →
          Answers (.openBay cls key []) s .conflict [] s ∧ Answers (.closeBay cls key []) s .conflict [] s) ∧
        (x.state = .released →
          Answers (.openBay cls key []) s .inUse [] s ∧ Answers (.closeBay cls key []) s .inUse [] s) ∧
        (x.state ≠ .unknown → x.state ≠ .faulted → x.state ≠ .isolated → x.state ≠ .released →
          (∃ t, Answers (.openBay cls key []) s .done [] t ∧ t.bay? f key.k2.toNat = some (s.opened f x) ∧
            s.handsOver f [key.k2.toNat] t ∧ s.otherBays f key.k2.toNat t ∧ s.elsewhere f t ∧
            (s.face f).fixed (t.face f)) ∧
          ∃ t, Answers (.closeBay cls key []) s .done [] t ∧
            t.bay? f key.k2.toNat =
              some (if x.state = .closedLocked ∨ x.state = .warning ∨ x.state = .closing then x else s.warned f x) ∧
            (t.face f).line = (s.face f).line ∧ s.otherBays f key.k2.toNat t ∧ s.elsewhere f t ∧
            (s.face f).fixed (t.face f)))

/-- R90, R84, R98: the deadlines of a bay. A motion limit that is due makes the bay FAULTED and gives HOLD; the end of a
warning makes it CLOSING, gives CLOSE (on a frozen line only recorded), and arms the close limit. A deadline of another
kind, suspended, or not due changes nothing (log entry 2). -/
def Obligations.DeadlinesMoveTheBay : Prop :=
  ∀ (s : State) (f : Face) (b : Nat), s.powered = true →
    (∀ c k, (c, k) ∈ [(Instr.unlockDeadlineExpiry f b, DeadlineKind.unlock), (.openDeadlineExpiry f b, .open),
        (.closeDeadlineExpiry f b, .close), (.warningDeadlineExpiry f b, .warning)] →
      ((∀ x d, s.bay? f b = some x → x.deadline = some ⟨k, some d, false⟩ → s.reached d = false) →
        exec c s = .next s)) ∧
    (∀ c k, (c, k) ∈ [(Instr.unlockDeadlineExpiry f b, DeadlineKind.unlock), (.openDeadlineExpiry f b, .open),
        (.closeDeadlineExpiry f b, .close)] →
      ∀ x d, s.bay? f b = some x → x.deadline = some ⟨k, some d, false⟩ → s.reached d = true →
        ∃ t, exec c s = .next t ∧ t.bay? f b = some x.faultedNow ∧
          (t.face f).line = (s.face f).line.commanded b .hold ∧ t.latched f .motionFault = true ∧
          s.otherBays f b t ∧ s.elsewhere f t ∧ (s.face f).fixed (t.face f)) ∧
    ∀ x d, s.bay? f b = some x → x.deadline = some ⟨.warning, some d, false⟩ → s.reached d = true →
      ∃ t, exec (.warningDeadlineExpiry f b) s = .next t ∧
        t.bay? f b =
          some { x with
            state := .closing, liveWarning := none, lastCommand := some .close
            deadline := s.deadline f .close (s.face f).config.closeLimit } ∧
        (t.face f).line = (if (s.face f).line.frozen then (s.face f).line else (s.face f).line.commanded b .close) ∧
        s.otherBays f b t ∧ s.elsewhere f t ∧ (s.face f).fixed (t.face f)

/-- The bay that a report in a moving state leaves (R81, R85, R87, R90): presence aside, with the last report and lock
confirmed stored before. A REOPENING bay without a deadline, which R86 sent HOLD, stays. -/
def movedByReport (s : State) (f : Face) (x : Bay) (r : BayReport) : Bay :=
  let opening : Bay := { x with state := .opening, deadline := s.deadline f .open (s.face f).config.openLimit }
  let forward : Bay :=
    if r.position = .fullyOpen then
      if (s.face f).fi.mode = .maintenance ∨ s.inService f x.num = true then
        { x with state := .open, deadline := none, liveWarning := none }
      else s.warned f x
    else if x.state = .unlocking ∧ (r.locked = false ∨ r.position = .movingOpen ∨ r.position = .stoppedBetween) then
      opening
    else x
  match x.state with
  | .unlocking | .opening => if r.motorFault then x.faultedNow else forward
  | .closing =>
      if r.motorFault then x.faultedNow
      else if r.position = .fullyClosed ∧ r.locked = true then
        { x with state := .closedLocked, deadline := none, liveWarning := none, reopens := 0 }
      else x
  | .reopening =>
      if r.motorFault then x.faultedNow
      else if r.position = .fullyOpen ∧ x.deadline ≠ none then
        if x.reopens = (s.face f).config.reopenLimit then { x with state := .heldOpen, deadline := none }
        else s.warned f x
      else x
  | .unknown | .closedLocked | .open | .warning | .heldOpen | .released | .faulted | .isolated => x

/-- A bay that has been sent OPEN and is UNLOCKING (R78, R93). -/
def reopenedBay (s : State) (f : Face) (x : Bay) : Bay :=
  { x with
    state := .unlocking, reopens := 0, liveWarning := none, lastCommand := some .open
    deadline := s.deadline f .unlock (s.face f).config.unlockLimit }

/-- The bay that takes its state afresh from a report (R78 from its step 2, R93): covered, it is RELEASED with its release
command; else CLOSED_LOCKED, opened again in service, or closed with warning. -/
def resolvedByReport (s : State) (f : Face) (x : Bay) (r : BayReport) : Bay :=
  if s.coverage f x.num ≠ .none then
    { x with
      state := .released, deadline := none, liveWarning := none, reopens := 0
      lastCommand := some (if s.coverage f x.num = .opening ∧ x.num ∈ s.mask f then .open else .hold) }
  else if r.closedLocked = true then { x with state := .closedLocked, deadline := none, liveWarning := none, reopens := 0 }
  else if s.inService f x.num = true then movedByReport s f (reopenedBay s f x) { r with motorFault := false }
  else s.warned f x

/-- R76: the command that a report in a state that waits for one gives a bay, by the bay that it leaves: coverage's where it
is not the last already, OPEN where the bay is opened again. -/
def resolvedCommand (s : State) (f : Face) (x : Bay) (r : BayReport) : Option DoorCommand :=
  if s.coverage f x.num ≠ .none then
    if x.lastCommand = some (s.releasesWith f x.num (s.coverage f x.num)) then none
    else some (s.releasesWith f x.num (s.coverage f x.num))
  else if r.closedLocked = false ∧ s.inService f x.num = true then some .open
  else none

/-- R78, R90, R93: the command that a report gives a bay. -/
def reportedCommand (s : State) (f : Face) (x : Bay) (r : BayReport) : Option DoorCommand :=
  if x.state = .unknown then
    if (s.face f).fi.mode = .maintenance then none
    else if x.isolated = true then some .hold
    else resolvedCommand s f x r
  else if x.restorePending = true then resolvedCommand s f x r
  else if (movedByReport s f x r).state = .faulted ∧ x.state ≠ .faulted then some .hold
  else none

/-- R77, R78, R81, R85, R87, R90, R93: a LIST bay report with no presence and no handle to tell, in every mode, whatever FI
waits for. The report and lock confirmed are stored; a bay in motion moves on, faults or stays; an UNKNOWN bay takes its
state outside MAINTENANCE, and a bay with restore pending in every mode; the others keep their state. A motor fault comes
before what the position shows (log entry 8). The command that the report gives joins the queue before the line is free
(R174), and a CLOSING berth whose masked bays the report finds all CLOSED_LOCKED is SECURED, a SECURED one of which it finds
one no longer so is CLOSING (R43). -/
def Obligations.ReportsMoveTheDoors : Prop :=
  ∀ (s : State) (f : Face) (b : Nat) (chars : List Byte) (x y : Bay) (r : BayResponse), s.reporting f b chars →
    s.bay? f b = some x → r = readBayResponse (chars.take 6) → r.beams = 0#4 → r.edge = false →
    r.platformHandle = false → r.trackHandle = false → x.platformHandle = false → x.trackHandle = false →
    s.presenceStanding f b = false →
    y = { x with lastReport := some ⟨r.report, false⟩, lockConfirmed := r.report.closedLocked } →
    ∃ t, exec (.responseComplete f chars) s = .next t ∧ s.otherBays f b t ∧
      (∃ v, lineServed v t f ∧
        (v.face f).line.queue =
          match reportedCommand s f y r.report with
          | some c =>
              if c = .hold ∨ (s.face f).line.frozen = false then ((s.face f).line.commanded b c).queue
              else (s.face f).line.queue
          | none => (s.face f).line.queue) ∧
      (SecuredKept s →
        (t.face f).berth =
            { (s.face f).berth with
              state :=
                if (s.face f).berth.state = .closing ∧ t.maskLocked f = true then .secured
                else if (s.face f).berth.state = .secured ∧ t.maskLocked f = false then .closing
                else (s.face f).berth.state } ∧
          ((t.face f).berth.state ≠ (s.face f).berth.state → t.latched f .berthChange = true)) ∧
      (x.state ≠ .unknown → x.restorePending = true →
        t.bay? f b = some (resolvedByReport s f { y with restorePending := false } r.report)) ∧
      (x.state ≠ .unknown → x.restorePending = false → t.bay? f b = some (movedByReport s f y r.report) ∧
        ((movedByReport s f y r.report).state = .faulted → x.state ≠ .faulted → t.latched f .motionFault = true) ∧
        ((movedByReport s f y r.report).state = .heldOpen → x.state ≠ .heldOpen → t.latched f .reopenLimit = true)) ∧
      (x.state = .unknown →
        ((s.face f).fi.mode = .maintenance → t.bay? f b = some y) ∧
        ((s.face f).fi.mode ≠ .maintenance →
          (x.isolated = true → t.bay? f b = some { y with state := .isolated, lastCommand := some .hold }) ∧
          (x.isolated = false → t.bay? f b = some (resolvedByReport s f y r.report))))

/-! ### Invariants that every step keeps -/

/-- R16, R18, R24, R25, R27, R28, R102, R122, R123: every step keeps the profile table (codes ascending, at most 16, pool
and lists summing to 512), the reference counts, the presence list (at most 48, one per key) and the release list (at most
32, one per key and one per tag). -/
def Obligations.StepsKeepTheTables : Prop :=
  ∀ s t : State, step s = .next t →
    (DoorPoolKept s → DoorPoolKept t) ∧ (ReferencesKept s → ReferencesKept t) ∧
      (PresenceListKept s → PresenceListKept t) ∧ (ReleaseListKept s → ReleaseListKept t)

/-- R3 to R9, R33, R171, R188, R189: every step keeps the bays of each face in order and clear of one another, every
setting in its range, the lists of an enabled line covering its face, the port between events, and the answer queues; and,
where the bays are kept, every reopen count at or below the limit, a HELD_OPEN bay's at it (R86, R87). It keeps each line with
one thing at a time on it, and every node address in flight, listed or asked for in 1 to 36 (R162, R178, R182, R184). -/
def Obligations.StepsKeepConfigurationAndPorts : Prop :=
  ∀ s t : State, step s = .next t →
    (BaysKept s → BaysKept t) ∧ (SettingsKept s → SettingsKept t) ∧ (CoverKept s → CoverKept t) ∧
      (PortKept s → PortKept t) ∧ (AnswersKept s → AnswersKept t) ∧ (BaysKept s → ReopensKept s → ReopensKept t) ∧
      (LinesKept s → LinesKept t)

/-- R29, R42, R43, R143, R148: every step keeps the optional fields of the berth records, and, where those are kept, the
rules that tie modes, stored modes and SECURED berths: no train stands at a face in STARTING or MAINTENANCE, and a
SECURED berth has every masked bay CLOSED_LOCKED and a CLOSING one has not. So does every step keep the census: no face
stays in STARTING that has seen its pass and has every bay surveyed (R141, R142, R149). -/
def Obligations.StepsKeepBerthsSecured : Prop :=
  ∀ s t : State, step s = .next t →
    (BerthsKept s → BerthsKept t ∧ (SecuredKept s → SecuredKept t)) ∧ (CensusKept s → CensusKept t)

/-- R153, R154: every step keeps FI's copies of the first five proving conditions true to the records, and PROVE asserted
exactly while all six copies hold: so no proving loop stays closed over an open bay, a presence, a release, a line that is
off or frozen, or a mode that does not prove. The sixth copy follows its events: it is taken anew where a node enters LOST
or leaves it and where an enrolled bay's isolated flag changes, and otherwise stays (log entry 24). -/
def Obligations.StepsKeepProvingTrue : Prop :=
  ∀ s t : State, ProvingKept s → step s = .next t →
    ProvingKept t ∧
      (∀ f, t.prove f = true →
        ((t.face f).fi.mode = .normal ∨ (t.face f).fi.mode = .manual) ∧ (∀ x ∈ (t.face f).bays, x.secure = true) ∧
          t.facePresence f = false ∧ t.releaseStanding f = false ∧ (t.face f).line.enabled = true ∧
          (t.face f).line.frozen = false) ∧
      ∀ f,
        ((t.face f).fi.conditions.nodes = (s.face f).fi.conditions.nodes ∨
          (t.face f).fi.conditions.nodes = t.nodesReachable f) ∧
        ((∃ a, 1 ≤ a ∧ a ≤ 36 ∧
              decide (((t.face f).line.node a).link = .lost) ≠ decide (((s.face f).line.node a).link = .lost)) ∨
            (∃ b x y, s.bay? f b = some x ∧ t.bay? f b = some y ∧ y.isolated ≠ x.isolated) →
          (t.face f).fi.conditions.nodes = t.nodesReachable f)

/-- The invariants hold right after reset. -/
def Obligations.ResetMeetsTheInvariants : Prop :=
  DoorPoolKept State.reset ∧ ReferencesKept State.reset ∧ PresenceListKept State.reset ∧ ReleaseListKept State.reset ∧
    BaysKept State.reset ∧ SettingsKept State.reset ∧ CoverKept State.reset ∧ PortKept State.reset ∧
    AnswersKept State.reset ∧ BerthsKept State.reset ∧ SecuredKept State.reset ∧ ProvingKept State.reset ∧
    LinkHealthKept State.reset ∧ ReopensKept State.reset ∧ CensusKept State.reset ∧ LinesKept State.reset

/-- A command that concerns one face leaves every other face exactly as it was, and no command's meaning touches the
queue of waiting commands. -/
def Obligations.CommandsStayOnTheirFace : Prop :=
  ∀ (c : Instr) (s t : State), exec c s = .next t →
    t.pending = s.pending ∧ ∀ f g, commandFace c = some f → g ≠ f → t.face g = s.face g
end

