-- ==== Sys2Proof/Laws/State.lean ====
section
/-! SUPPORT. The small lemmas of the state: reading a face after a change of a face, and every other field after it. -/

namespace Sys2Proof

/-! ### One entry per face -/

@[simp] theorem PerFace.get_set_same {α : Type} (p : PerFace α) (f : Face) (x : α) : (p.set f x).get f = x := by
  cases f <;> rfl

theorem PerFace.get_set_ne {α : Type} (p : PerFace α) {f g : Face} (x : α) (h : g ≠ f) :
    (p.set f x).get g = p.get g := by
  cases f <;> cases g <;> first | rfl | exact absurd rfl h

theorem PerFace.get_set {α : Type} (p : PerFace α) (f g : Face) (x : α) :
    (p.set f x).get g = if g = f then x else p.get g := by
  split
  · next h => rw [h, PerFace.get_set_same]
  · next h => exact PerFace.get_set_ne p x h

@[ext] theorem PerFace.ext_get {α : Type} {p q : PerFace α} (h : ∀ f, p.get f = q.get f) : p = q := by
  cases p
  cases q
  have h0 := h .f0
  have h1 := h .f1
  have h2 := h .f2
  have h3 := h .f3
  simp only [PerFace.get] at h0 h1 h2 h3
  subst h0 h1 h2 h3
  rfl

@[simp] theorem PerFace.set_set {α : Type} (p : PerFace α) (f : Face) (x y : α) : (p.set f x).set f y = p.set f y := by
  cases f <;> rfl

@[simp] theorem PerFace.set_get {α : Type} (p : PerFace α) (f : Face) : p.set f (p.get f) = p := by
  cases f <;> rfl

@[simp] theorem PerFace.get_all {α : Type} (x : α) (f : Face) : (PerFace.all x).get f = x := by cases f <;> rfl

@[simp] theorem PerMarker.get_set_same {α : Type} (p : PerMarker α) (k : Marker) (x : α) : (p.set k x).get k = x := by
  cases k <;> rfl

theorem PerMarker.get_set_ne {α : Type} (p : PerMarker α) {j k : Marker} (x : α) (h : j ≠ k) :
    (p.set k x).get j = p.get j := by
  cases j <;> cases k <;> first | rfl | exact absurd rfl h

namespace Machine

/-! ### A face of a state -/

@[simp] theorem State.faces_get (s : State) (f : Face) : s.faces.get f = s.face f := rfl

/-- Two states are equal when they agree on every field outside the faces and on every face. -/
theorem State.ext_faces {s t : State} (h : t = { s with faces := t.faces }) (hf : ∀ f, t.face f = s.face f) : t = s := by
  have : t.faces = s.faces := PerFace.ext_get hf
  rw [h, this]

@[simp] theorem State.face_mk (p h : Bool) (n : Time) (e : InputPin) (ps : List Profile) (fp : Nat) (pr : List Presence)
    (rs : List Release) (nt : Nat) (po : Port) (pa : Bool) (fc : Nat) (fs : PerFace FaceState) (q : List Instr)
    (f : Face) : (State.mk p h n e ps fp pr rs nt po pa fc fs q).face f = fs.get f := rfl

@[simp] theorem State.face_modFace_same (s : State) (f : Face) (g : FaceState → FaceState) :
    (s.modFace f g).face f = g (s.face f) := PerFace.get_set_same _ _ _

theorem State.face_modFace_ne (s : State) {f g : Face} (k : FaceState → FaceState) (h : g ≠ f) :
    (s.modFace f k).face g = s.face g := PerFace.get_set_ne _ _ h

theorem State.face_modFace (s : State) (f g : Face) (k : FaceState → FaceState) :
    (s.modFace f k).face g = if g = f then k (s.face g) else s.face g := by
  split
  · next h => subst h; simp
  · next h => exact State.face_modFace_ne s k h

/-- A change of one face changes the faces and nothing else. -/
theorem State.modFace_eq (s : State) (f : Face) (g : FaceState → FaceState) :
    s.modFace f g = { s with faces := (s.modFace f g).faces } := rfl

@[simp] theorem State.modFace_modFace (s : State) (f : Face) (g k : FaceState → FaceState) :
    (s.modFace f g).modFace f k = s.modFace f (fun x => k (g x)) := by
  simp [State.modFace]

/-- Only the value at the present record counts. -/
theorem State.modFace_congr (s : State) (f : Face) {g k : FaceState → FaceState} (h : g (s.face f) = k (s.face f)) :
    s.modFace f g = s.modFace f k := by
  unfold State.modFace
  rw [State.faces_get, h]

theorem State.modFace_id (s : State) (f : Face) : (s.modFace f fun x => x) = s := by
  show { s with faces := s.faces.set f (s.faces.get f) } = s
  rw [PerFace.set_get]

/-! ### Every other field after a change of a face -/

@[simp] theorem State.modFace_powered (s : State) (f : Face) (g : FaceState → FaceState) :
    (s.modFace f g).powered = s.powered := rfl
@[simp] theorem State.modFace_resetHeld (s : State) (f : Face) (g : FaceState → FaceState) :
    (s.modFace f g).resetHeld = s.resetHeld := rfl
@[simp] theorem State.modFace_now (s : State) (f : Face) (g : FaceState → FaceState) :
    (s.modFace f g).now = s.now := rfl
@[simp] theorem State.modFace_evac (s : State) (f : Face) (g : FaceState → FaceState) :
    (s.modFace f g).evac = s.evac := rfl
@[simp] theorem State.modFace_profiles (s : State) (f : Face) (g : FaceState → FaceState) :
    (s.modFace f g).profiles = s.profiles := rfl
@[simp] theorem State.modFace_freePool (s : State) (f : Face) (g : FaceState → FaceState) :
    (s.modFace f g).freePool = s.freePool := rfl
@[simp] theorem State.modFace_presence (s : State) (f : Face) (g : FaceState → FaceState) :
    (s.modFace f g).presence = s.presence := rfl
@[simp] theorem State.modFace_releases (s : State) (f : Face) (g : FaceState → FaceState) :
    (s.modFace f g).releases = s.releases := rfl
@[simp] theorem State.modFace_nextTag (s : State) (f : Face) (g : FaceState → FaceState) :
    (s.modFace f g).nextTag = s.nextTag := rfl
@[simp] theorem State.modFace_port (s : State) (f : Face) (g : FaceState → FaceState) :
    (s.modFace f g).port = s.port := rfl
@[simp] theorem State.modFace_partAttn (s : State) (f : Face) (g : FaceState → FaceState) :
    (s.modFace f g).partAttn = s.partAttn := rfl
@[simp] theorem State.modFace_freeCount (s : State) (f : Face) (g : FaceState → FaceState) :
    (s.modFace f g).freeCount = s.freeCount := rfl
@[simp] theorem State.modFace_pending (s : State) (f : Face) (g : FaceState → FaceState) :
    (s.modFace f g).pending = s.pending := rfl

@[simp] theorem State.modConfig_powered (s : State) (f : Face) (g : FaceConfig → FaceConfig) :
    (s.modConfig f g).powered = s.powered := rfl
@[simp] theorem State.modConfig_resetHeld (s : State) (f : Face) (g : FaceConfig → FaceConfig) :
    (s.modConfig f g).resetHeld = s.resetHeld := rfl
@[simp] theorem State.modConfig_now (s : State) (f : Face) (g : FaceConfig → FaceConfig) :
    (s.modConfig f g).now = s.now := rfl
@[simp] theorem State.modConfig_evac (s : State) (f : Face) (g : FaceConfig → FaceConfig) :
    (s.modConfig f g).evac = s.evac := rfl
@[simp] theorem State.modConfig_profiles (s : State) (f : Face) (g : FaceConfig → FaceConfig) :
    (s.modConfig f g).profiles = s.profiles := rfl
@[simp] theorem State.modConfig_freePool (s : State) (f : Face) (g : FaceConfig → FaceConfig) :
    (s.modConfig f g).freePool = s.freePool := rfl
@[simp] theorem State.modConfig_presence (s : State) (f : Face) (g : FaceConfig → FaceConfig) :
    (s.modConfig f g).presence = s.presence := rfl
@[simp] theorem State.modConfig_releases (s : State) (f : Face) (g : FaceConfig → FaceConfig) :
    (s.modConfig f g).releases = s.releases := rfl
@[simp] theorem State.modConfig_nextTag (s : State) (f : Face) (g : FaceConfig → FaceConfig) :
    (s.modConfig f g).nextTag = s.nextTag := rfl
@[simp] theorem State.modConfig_port (s : State) (f : Face) (g : FaceConfig → FaceConfig) :
    (s.modConfig f g).port = s.port := rfl
@[simp] theorem State.modConfig_partAttn (s : State) (f : Face) (g : FaceConfig → FaceConfig) :
    (s.modConfig f g).partAttn = s.partAttn := rfl
@[simp] theorem State.modConfig_freeCount (s : State) (f : Face) (g : FaceConfig → FaceConfig) :
    (s.modConfig f g).freeCount = s.freeCount := rfl
@[simp] theorem State.modConfig_pending (s : State) (f : Face) (g : FaceConfig → FaceConfig) :
    (s.modConfig f g).pending = s.pending := rfl

@[simp] theorem State.modBays_powered (s : State) (f : Face) (g : List Bay → List Bay) :
    (s.modBays f g).powered = s.powered := rfl
@[simp] theorem State.modBays_resetHeld (s : State) (f : Face) (g : List Bay → List Bay) :
    (s.modBays f g).resetHeld = s.resetHeld := rfl
@[simp] theorem State.modBays_now (s : State) (f : Face) (g : List Bay → List Bay) :
    (s.modBays f g).now = s.now := rfl
@[simp] theorem State.modBays_evac (s : State) (f : Face) (g : List Bay → List Bay) :
    (s.modBays f g).evac = s.evac := rfl
@[simp] theorem State.modBays_profiles (s : State) (f : Face) (g : List Bay → List Bay) :
    (s.modBays f g).profiles = s.profiles := rfl
@[simp] theorem State.modBays_freePool (s : State) (f : Face) (g : List Bay → List Bay) :
    (s.modBays f g).freePool = s.freePool := rfl
@[simp] theorem State.modBays_presence (s : State) (f : Face) (g : List Bay → List Bay) :
    (s.modBays f g).presence = s.presence := rfl
@[simp] theorem State.modBays_releases (s : State) (f : Face) (g : List Bay → List Bay) :
    (s.modBays f g).releases = s.releases := rfl
@[simp] theorem State.modBays_nextTag (s : State) (f : Face) (g : List Bay → List Bay) :
    (s.modBays f g).nextTag = s.nextTag := rfl
@[simp] theorem State.modBays_port (s : State) (f : Face) (g : List Bay → List Bay) :
    (s.modBays f g).port = s.port := rfl
@[simp] theorem State.modBays_partAttn (s : State) (f : Face) (g : List Bay → List Bay) :
    (s.modBays f g).partAttn = s.partAttn := rfl
@[simp] theorem State.modBays_freeCount (s : State) (f : Face) (g : List Bay → List Bay) :
    (s.modBays f g).freeCount = s.freeCount := rfl
@[simp] theorem State.modBays_pending (s : State) (f : Face) (g : List Bay → List Bay) :
    (s.modBays f g).pending = s.pending := rfl

@[simp] theorem State.modBerth_powered (s : State) (f : Face) (g : Berth → Berth) :
    (s.modBerth f g).powered = s.powered := rfl
@[simp] theorem State.modBerth_resetHeld (s : State) (f : Face) (g : Berth → Berth) :
    (s.modBerth f g).resetHeld = s.resetHeld := rfl
@[simp] theorem State.modBerth_now (s : State) (f : Face) (g : Berth → Berth) :
    (s.modBerth f g).now = s.now := rfl
@[simp] theorem State.modBerth_evac (s : State) (f : Face) (g : Berth → Berth) :
    (s.modBerth f g).evac = s.evac := rfl
@[simp] theorem State.modBerth_profiles (s : State) (f : Face) (g : Berth → Berth) :
    (s.modBerth f g).profiles = s.profiles := rfl
@[simp] theorem State.modBerth_freePool (s : State) (f : Face) (g : Berth → Berth) :
    (s.modBerth f g).freePool = s.freePool := rfl
@[simp] theorem State.modBerth_presence (s : State) (f : Face) (g : Berth → Berth) :
    (s.modBerth f g).presence = s.presence := rfl
@[simp] theorem State.modBerth_releases (s : State) (f : Face) (g : Berth → Berth) :
    (s.modBerth f g).releases = s.releases := rfl
@[simp] theorem State.modBerth_nextTag (s : State) (f : Face) (g : Berth → Berth) :
    (s.modBerth f g).nextTag = s.nextTag := rfl
@[simp] theorem State.modBerth_port (s : State) (f : Face) (g : Berth → Berth) :
    (s.modBerth f g).port = s.port := rfl
@[simp] theorem State.modBerth_partAttn (s : State) (f : Face) (g : Berth → Berth) :
    (s.modBerth f g).partAttn = s.partAttn := rfl
@[simp] theorem State.modBerth_freeCount (s : State) (f : Face) (g : Berth → Berth) :
    (s.modBerth f g).freeCount = s.freeCount := rfl
@[simp] theorem State.modBerth_pending (s : State) (f : Face) (g : Berth → Berth) :
    (s.modBerth f g).pending = s.pending := rfl

@[simp] theorem State.modLink_powered (s : State) (f : Face) (g : TrainLink → TrainLink) :
    (s.modLink f g).powered = s.powered := rfl
@[simp] theorem State.modLink_resetHeld (s : State) (f : Face) (g : TrainLink → TrainLink) :
    (s.modLink f g).resetHeld = s.resetHeld := rfl
@[simp] theorem State.modLink_now (s : State) (f : Face) (g : TrainLink → TrainLink) :
    (s.modLink f g).now = s.now := rfl
@[simp] theorem State.modLink_evac (s : State) (f : Face) (g : TrainLink → TrainLink) :
    (s.modLink f g).evac = s.evac := rfl
@[simp] theorem State.modLink_profiles (s : State) (f : Face) (g : TrainLink → TrainLink) :
    (s.modLink f g).profiles = s.profiles := rfl
@[simp] theorem State.modLink_freePool (s : State) (f : Face) (g : TrainLink → TrainLink) :
    (s.modLink f g).freePool = s.freePool := rfl
@[simp] theorem State.modLink_presence (s : State) (f : Face) (g : TrainLink → TrainLink) :
    (s.modLink f g).presence = s.presence := rfl
@[simp] theorem State.modLink_releases (s : State) (f : Face) (g : TrainLink → TrainLink) :
    (s.modLink f g).releases = s.releases := rfl
@[simp] theorem State.modLink_nextTag (s : State) (f : Face) (g : TrainLink → TrainLink) :
    (s.modLink f g).nextTag = s.nextTag := rfl
@[simp] theorem State.modLink_port (s : State) (f : Face) (g : TrainLink → TrainLink) :
    (s.modLink f g).port = s.port := rfl
@[simp] theorem State.modLink_partAttn (s : State) (f : Face) (g : TrainLink → TrainLink) :
    (s.modLink f g).partAttn = s.partAttn := rfl
@[simp] theorem State.modLink_freeCount (s : State) (f : Face) (g : TrainLink → TrainLink) :
    (s.modLink f g).freeCount = s.freeCount := rfl
@[simp] theorem State.modLink_pending (s : State) (f : Face) (g : TrainLink → TrainLink) :
    (s.modLink f g).pending = s.pending := rfl

@[simp] theorem State.modAu_powered (s : State) (f : Face) (g : Alignment → Alignment) :
    (s.modAu f g).powered = s.powered := rfl
@[simp] theorem State.modAu_resetHeld (s : State) (f : Face) (g : Alignment → Alignment) :
    (s.modAu f g).resetHeld = s.resetHeld := rfl
@[simp] theorem State.modAu_now (s : State) (f : Face) (g : Alignment → Alignment) :
    (s.modAu f g).now = s.now := rfl
@[simp] theorem State.modAu_evac (s : State) (f : Face) (g : Alignment → Alignment) :
    (s.modAu f g).evac = s.evac := rfl
@[simp] theorem State.modAu_profiles (s : State) (f : Face) (g : Alignment → Alignment) :
    (s.modAu f g).profiles = s.profiles := rfl
@[simp] theorem State.modAu_freePool (s : State) (f : Face) (g : Alignment → Alignment) :
    (s.modAu f g).freePool = s.freePool := rfl
@[simp] theorem State.modAu_presence (s : State) (f : Face) (g : Alignment → Alignment) :
    (s.modAu f g).presence = s.presence := rfl
@[simp] theorem State.modAu_releases (s : State) (f : Face) (g : Alignment → Alignment) :
    (s.modAu f g).releases = s.releases := rfl
@[simp] theorem State.modAu_nextTag (s : State) (f : Face) (g : Alignment → Alignment) :
    (s.modAu f g).nextTag = s.nextTag := rfl
@[simp] theorem State.modAu_port (s : State) (f : Face) (g : Alignment → Alignment) :
    (s.modAu f g).port = s.port := rfl
@[simp] theorem State.modAu_partAttn (s : State) (f : Face) (g : Alignment → Alignment) :
    (s.modAu f g).partAttn = s.partAttn := rfl
@[simp] theorem State.modAu_freeCount (s : State) (f : Face) (g : Alignment → Alignment) :
    (s.modAu f g).freeCount = s.freeCount := rfl
@[simp] theorem State.modAu_pending (s : State) (f : Face) (g : Alignment → Alignment) :
    (s.modAu f g).pending = s.pending := rfl

@[simp] theorem State.modFi_powered (s : State) (f : Face) (g : Interlock → Interlock) :
    (s.modFi f g).powered = s.powered := rfl
@[simp] theorem State.modFi_resetHeld (s : State) (f : Face) (g : Interlock → Interlock) :
    (s.modFi f g).resetHeld = s.resetHeld := rfl
@[simp] theorem State.modFi_now (s : State) (f : Face) (g : Interlock → Interlock) :
    (s.modFi f g).now = s.now := rfl
@[simp] theorem State.modFi_evac (s : State) (f : Face) (g : Interlock → Interlock) :
    (s.modFi f g).evac = s.evac := rfl
@[simp] theorem State.modFi_profiles (s : State) (f : Face) (g : Interlock → Interlock) :
    (s.modFi f g).profiles = s.profiles := rfl
@[simp] theorem State.modFi_freePool (s : State) (f : Face) (g : Interlock → Interlock) :
    (s.modFi f g).freePool = s.freePool := rfl
@[simp] theorem State.modFi_presence (s : State) (f : Face) (g : Interlock → Interlock) :
    (s.modFi f g).presence = s.presence := rfl
@[simp] theorem State.modFi_releases (s : State) (f : Face) (g : Interlock → Interlock) :
    (s.modFi f g).releases = s.releases := rfl
@[simp] theorem State.modFi_nextTag (s : State) (f : Face) (g : Interlock → Interlock) :
    (s.modFi f g).nextTag = s.nextTag := rfl
@[simp] theorem State.modFi_port (s : State) (f : Face) (g : Interlock → Interlock) :
    (s.modFi f g).port = s.port := rfl
@[simp] theorem State.modFi_partAttn (s : State) (f : Face) (g : Interlock → Interlock) :
    (s.modFi f g).partAttn = s.partAttn := rfl
@[simp] theorem State.modFi_freeCount (s : State) (f : Face) (g : Interlock → Interlock) :
    (s.modFi f g).freeCount = s.freeCount := rfl
@[simp] theorem State.modFi_pending (s : State) (f : Face) (g : Interlock → Interlock) :
    (s.modFi f g).pending = s.pending := rfl

@[simp] theorem State.modLine_powered (s : State) (f : Face) (g : Line → Line) :
    (s.modLine f g).powered = s.powered := rfl
@[simp] theorem State.modLine_resetHeld (s : State) (f : Face) (g : Line → Line) :
    (s.modLine f g).resetHeld = s.resetHeld := rfl
@[simp] theorem State.modLine_now (s : State) (f : Face) (g : Line → Line) :
    (s.modLine f g).now = s.now := rfl
@[simp] theorem State.modLine_evac (s : State) (f : Face) (g : Line → Line) :
    (s.modLine f g).evac = s.evac := rfl
@[simp] theorem State.modLine_profiles (s : State) (f : Face) (g : Line → Line) :
    (s.modLine f g).profiles = s.profiles := rfl
@[simp] theorem State.modLine_freePool (s : State) (f : Face) (g : Line → Line) :
    (s.modLine f g).freePool = s.freePool := rfl
@[simp] theorem State.modLine_presence (s : State) (f : Face) (g : Line → Line) :
    (s.modLine f g).presence = s.presence := rfl
@[simp] theorem State.modLine_releases (s : State) (f : Face) (g : Line → Line) :
    (s.modLine f g).releases = s.releases := rfl
@[simp] theorem State.modLine_nextTag (s : State) (f : Face) (g : Line → Line) :
    (s.modLine f g).nextTag = s.nextTag := rfl
@[simp] theorem State.modLine_port (s : State) (f : Face) (g : Line → Line) :
    (s.modLine f g).port = s.port := rfl
@[simp] theorem State.modLine_partAttn (s : State) (f : Face) (g : Line → Line) :
    (s.modLine f g).partAttn = s.partAttn := rfl
@[simp] theorem State.modLine_freeCount (s : State) (f : Face) (g : Line → Line) :
    (s.modLine f g).freeCount = s.freeCount := rfl
@[simp] theorem State.modLine_pending (s : State) (f : Face) (g : Line → Line) :
    (s.modLine f g).pending = s.pending := rfl

/-! ### The parts of a face after a change of one part -/

@[simp] theorem State.face_modConfig_same (s : State) (f : Face) (g : FaceConfig → FaceConfig) :
    (s.modConfig f g).face f = { s.face f with config := g (s.face f).config } := State.face_modFace_same s f _

theorem State.face_modConfig_ne (s : State) {f g : Face} (k : FaceConfig → FaceConfig) (h : g ≠ f) :
    (s.modConfig f k).face g = s.face g := State.face_modFace_ne s _ h

@[simp] theorem State.face_modBays_same (s : State) (f : Face) (g : List Bay → List Bay) :
    (s.modBays f g).face f = { s.face f with bays := g (s.face f).bays } := State.face_modFace_same s f _

theorem State.face_modBays_ne (s : State) {f g : Face} (k : List Bay → List Bay) (h : g ≠ f) :
    (s.modBays f k).face g = s.face g := State.face_modFace_ne s _ h

@[simp] theorem State.face_modBerth_same (s : State) (f : Face) (g : Berth → Berth) :
    (s.modBerth f g).face f = { s.face f with berth := g (s.face f).berth } := State.face_modFace_same s f _

theorem State.face_modBerth_ne (s : State) {f g : Face} (k : Berth → Berth) (h : g ≠ f) :
    (s.modBerth f k).face g = s.face g := State.face_modFace_ne s _ h

@[simp] theorem State.face_modLink_same (s : State) (f : Face) (g : TrainLink → TrainLink) :
    (s.modLink f g).face f = { s.face f with link := g (s.face f).link } := State.face_modFace_same s f _

theorem State.face_modLink_ne (s : State) {f g : Face} (k : TrainLink → TrainLink) (h : g ≠ f) :
    (s.modLink f k).face g = s.face g := State.face_modFace_ne s _ h

@[simp] theorem State.face_modAu_same (s : State) (f : Face) (g : Alignment → Alignment) :
    (s.modAu f g).face f = { s.face f with au := g (s.face f).au } := State.face_modFace_same s f _

theorem State.face_modAu_ne (s : State) {f g : Face} (k : Alignment → Alignment) (h : g ≠ f) :
    (s.modAu f k).face g = s.face g := State.face_modFace_ne s _ h

@[simp] theorem State.face_modFi_same (s : State) (f : Face) (g : Interlock → Interlock) :
    (s.modFi f g).face f = { s.face f with fi := g (s.face f).fi } := State.face_modFace_same s f _

theorem State.face_modFi_ne (s : State) {f g : Face} (k : Interlock → Interlock) (h : g ≠ f) :
    (s.modFi f k).face g = s.face g := State.face_modFace_ne s _ h

@[simp] theorem State.face_modLine_same (s : State) (f : Face) (g : Line → Line) :
    (s.modLine f g).face f = { s.face f with line := g (s.face f).line } := State.face_modFace_same s f _

theorem State.face_modLine_ne (s : State) {f g : Face} (k : Line → Line) (h : g ≠ f) :
    (s.modLine f k).face g = s.face g := State.face_modFace_ne s _ h

/-! ### Attention -/

@[simp] theorem State.face_latch_same (s : State) (f : Face) (k : Attn) :
    (s.latch f k).face f = { s.face f with attn := (s.face f).attn ||| k.bit } := State.face_modFace_same s f _

theorem State.face_latch_ne (s : State) {f g : Face} (k : Attn) (h : g ≠ f) : (s.latch f k).face g = s.face g :=
  State.face_modFace_ne s _ h

@[simp] theorem State.latch_powered (s : State) (f : Face) (k : Attn) : (s.latch f k).powered = s.powered := rfl
@[simp] theorem State.latch_resetHeld (s : State) (f : Face) (k : Attn) : (s.latch f k).resetHeld = s.resetHeld := rfl
@[simp] theorem State.latch_now (s : State) (f : Face) (k : Attn) : (s.latch f k).now = s.now := rfl
@[simp] theorem State.latch_evac (s : State) (f : Face) (k : Attn) : (s.latch f k).evac = s.evac := rfl
@[simp] theorem State.latch_profiles (s : State) (f : Face) (k : Attn) : (s.latch f k).profiles = s.profiles := rfl
@[simp] theorem State.latch_freePool (s : State) (f : Face) (k : Attn) : (s.latch f k).freePool = s.freePool := rfl
@[simp] theorem State.latch_presence (s : State) (f : Face) (k : Attn) : (s.latch f k).presence = s.presence := rfl
@[simp] theorem State.latch_releases (s : State) (f : Face) (k : Attn) : (s.latch f k).releases = s.releases := rfl
@[simp] theorem State.latch_nextTag (s : State) (f : Face) (k : Attn) : (s.latch f k).nextTag = s.nextTag := rfl
@[simp] theorem State.latch_port (s : State) (f : Face) (k : Attn) : (s.latch f k).port = s.port := rfl
@[simp] theorem State.latch_partAttn (s : State) (f : Face) (k : Attn) : (s.latch f k).partAttn = s.partAttn := rfl
@[simp] theorem State.latch_freeCount (s : State) (f : Face) (k : Attn) : (s.latch f k).freeCount = s.freeCount := rfl
@[simp] theorem State.latch_pending (s : State) (f : Face) (k : Attn) : (s.latch f k).pending = s.pending := rfl

/-! ### Bays -/

@[simp] theorem State.face_modBay_same (s : State) (f : Face) (b : Nat) (g : Bay → Bay) :
    (s.modBay f b g).face f =
      { s.face f with bays := (s.face f).bays.map fun x => if x.num == b then g x else x } :=
  State.face_modFace_same s f _

theorem State.face_modBay_ne (s : State) {f g : Face} (b : Nat) (k : Bay → Bay) (h : g ≠ f) :
    (s.modBay f b k).face g = s.face g := State.face_modFace_ne s _ h

@[simp] theorem State.modBay_powered (s : State) (f : Face) (b : Nat) (g : Bay → Bay) :
    (s.modBay f b g).powered = s.powered := rfl
@[simp] theorem State.modBay_resetHeld (s : State) (f : Face) (b : Nat) (g : Bay → Bay) :
    (s.modBay f b g).resetHeld = s.resetHeld := rfl
@[simp] theorem State.modBay_now (s : State) (f : Face) (b : Nat) (g : Bay → Bay) :
    (s.modBay f b g).now = s.now := rfl
@[simp] theorem State.modBay_evac (s : State) (f : Face) (b : Nat) (g : Bay → Bay) :
    (s.modBay f b g).evac = s.evac := rfl
@[simp] theorem State.modBay_profiles (s : State) (f : Face) (b : Nat) (g : Bay → Bay) :
    (s.modBay f b g).profiles = s.profiles := rfl
@[simp] theorem State.modBay_freePool (s : State) (f : Face) (b : Nat) (g : Bay → Bay) :
    (s.modBay f b g).freePool = s.freePool := rfl
@[simp] theorem State.modBay_presence (s : State) (f : Face) (b : Nat) (g : Bay → Bay) :
    (s.modBay f b g).presence = s.presence := rfl
@[simp] theorem State.modBay_releases (s : State) (f : Face) (b : Nat) (g : Bay → Bay) :
    (s.modBay f b g).releases = s.releases := rfl
@[simp] theorem State.modBay_nextTag (s : State) (f : Face) (b : Nat) (g : Bay → Bay) :
    (s.modBay f b g).nextTag = s.nextTag := rfl
@[simp] theorem State.modBay_port (s : State) (f : Face) (b : Nat) (g : Bay → Bay) :
    (s.modBay f b g).port = s.port := rfl
@[simp] theorem State.modBay_partAttn (s : State) (f : Face) (b : Nat) (g : Bay → Bay) :
    (s.modBay f b g).partAttn = s.partAttn := rfl
@[simp] theorem State.modBay_freeCount (s : State) (f : Face) (b : Nat) (g : Bay → Bay) :
    (s.modBay f b g).freeCount = s.freeCount := rfl
@[simp] theorem State.modBay_pending (s : State) (f : Face) (b : Nat) (g : Bay → Bay) :
    (s.modBay f b g).pending = s.pending := rfl

/-- The record of a bay after a change of a bay that keeps its number. -/
theorem State.bay?_modBay (s : State) (f : Face) (b c : Nat) (g : Bay → Bay) (hg : ∀ x, (g x).num = x.num) :
    (s.modBay f b g).bay? f c = if c = b then (s.bay? f c).map g else s.bay? f c := by
  simp only [State.bay?, State.face_modBay_same]
  induction (s.face f).bays with
  | nil => simp
  | cons x xs ih =>
    by_cases hb : x.num = b <;> by_cases hc : x.num = c <;> by_cases hcb : c = b <;>
      simp_all

/-! ### Bounded counters -/

theorem bump_le (n : Nat) : bump n ≤ Config.counterMax := by
  unfold bump saturate
  split <;> omega

theorem bump_of_lt {n : Nat} (h : n < Config.counterMax) : bump n = n + 1 := by simp [bump, saturate, h]

theorem saturate_le (limit n : Nat) : saturate limit n ≤ limit := by
  unfold saturate
  split <;> omega

/-! ### An operation made for each item of a list -/

@[simp] theorem forEach_nil {α : Type} (op : α → State → State) (s : State) : forEach [] op s = s := rfl

@[simp] theorem forEach_cons {α : Type} (x : α) (xs : List α) (op : α → State → State) (s : State) :
    forEach (x :: xs) op s = forEach xs op (op x s) := rfl

/-- What every single operation preserves, the whole run preserves. -/
theorem forEach_induction {α : Type} {P : State → Prop} (xs : List α) {op : α → State → State}
    (h : ∀ x ∈ xs, ∀ s, P s → P (op x s)) {s : State} (hs : P s) : P (forEach xs op s) := by
  induction xs generalizing s with
  | nil => exact hs
  | cons x xs ih =>
    exact ih (fun y hy => h y (List.mem_cons_of_mem x hy)) (h x List.mem_cons_self s hs)

/-- A run whose every operation leaves the state as it is leaves it. -/
theorem forEach_fixed {α : Type} (xs : List α) {op : α → State → State} {s : State} (h : ∀ x ∈ xs, op x s = s) :
    forEach xs op s = s := by
  induction xs with
  | nil => rfl
  | cons x xs ih =>
    rw [forEach_cons, h x List.mem_cons_self]
    exact ih fun y hy => h y (List.mem_cons_of_mem x hy)

end Machine

end Sys2Proof
end

