-- ==== Sys2Proof/Laws/Moves.lean ====
section
/-! SUPPORT. The frame of the door and berth operations: one relation that says what none of them touches, and one lemma
per operation that it keeps to it. -/

namespace Sys2Proof.Machine

/-- What every operation of DS, BC and FI on face `f` keeps: the rest of the part but for GM's entrapment flags, the
other faces, what `FaceState.fixed` lists, the overflow marks and handle states of the bays, the release mark and the
train link. -/
structure Moves (f : Face) (s t : State) : Prop where
  rest : t = { s with faces := t.faces, presence := t.presence }
  bare : t.presenceBare = s.presenceBare
  others : ∀ g, g ≠ f → t.face g = s.face g
  fixed : (s.face f).fixed (t.face f)
  marks : (t.face f).bays.map (fun x => (x.overflow, x.platformHandle, x.trackHandle)) =
    (s.face f).bays.map fun x => (x.overflow, x.platformHandle, x.trackHandle)
  overflow : (t.face f).releaseOverflow = (s.face f).releaseOverflow
  link : (t.face f).link = (s.face f).link

namespace Moves

theorem elsewhere {f : Face} {s t : State} (h : Moves f s t) : s.elsewhere f t := ⟨h.rest, h.bare, h.others⟩

theorem now {f : Face} {s t : State} (h : Moves f s t) : t.now = s.now := by rw [h.rest]
theorem releases {f : Face} {s t : State} (h : Moves f s t) : t.releases = s.releases := by rw [h.rest]
theorem profiles {f : Face} {s t : State} (h : Moves f s t) : t.profiles = s.profiles := by rw [h.rest]
theorem port {f : Face} {s t : State} (h : Moves f s t) : t.port = s.port := by rw [h.rest]
theorem pending {f : Face} {s t : State} (h : Moves f s t) : t.pending = s.pending := by rw [h.rest]
theorem config {f : Face} {s t : State} (h : Moves f s t) : (t.face f).config = (s.face f).config := h.fixed.1
theorem frozen {f : Face} {s t : State} (h : Moves f s t) : (t.face f).line.frozen = (s.face f).line.frozen := by
  rw [h.fixed.2.2.2.2.2.2.2]

theorem refl (f : Face) (s : State) : Moves f s s :=
  ⟨rfl, rfl, fun _ _ => rfl, ⟨rfl, rfl, rfl, rfl, rfl, rfl, rfl, rfl⟩, rfl, rfl, rfl⟩

theorem trans {f : Face} {s t u : State} (h : Moves f s t) (k : Moves f t u) : Moves f s u where
  rest := by rw [k.rest, h.rest]
  bare := k.bare.trans h.bare
  others := fun g hg => (k.others g hg).trans (h.others g hg)
  fixed := by
    obtain ⟨a1, a2, a3, a4, a5, a6, a7, a8⟩ := h.fixed
    obtain ⟨b1, b2, b3, b4, b5, b6, b7, b8⟩ := k.fixed
    exact ⟨b1.trans a1, b2.trans a2, b3.trans a3, b4.trans a4, b5.trans a5, b6.trans a6, by rw [b7, a7], by rw [b8, a8]⟩
  marks := k.marks.trans h.marks
  overflow := k.overflow.trans h.overflow
  link := k.link.trans h.link

/-- A change of the face that keeps what every operation keeps. -/
theorem of_modFace {f : Face} {s : State} {g : FaceState → FaceState}
    (hx : (s.face f).fixed (g (s.face f)) := by exact ⟨rfl, rfl, rfl, rfl, rfl, rfl, rfl, rfl⟩)
    (hm : (g (s.face f)).bays.map (fun x => (x.overflow, x.platformHandle, x.trackHandle)) =
      (s.face f).bays.map (fun x => (x.overflow, x.platformHandle, x.trackHandle)) := by rfl)
    (ho : (g (s.face f)).releaseOverflow = (s.face f).releaseOverflow := by rfl)
    (hl : (g (s.face f)).link = (s.face f).link := by rfl) :
    Moves f s (s.modFace f g) where
  rest := rfl
  bare := rfl
  others := fun _ hg => State.face_modFace_ne s g hg
  fixed := by rw [State.face_modFace_same]; exact hx
  marks := by rw [State.face_modFace_same]; exact hm
  overflow := by rw [State.face_modFace_same]; exact ho
  link := by rw [State.face_modFace_same]; exact hl

/-- A run of operations that each keep to the relation keeps to it. -/
theorem forEach {α : Type} {f : Face} (xs : List α) {op : α → State → State}
    (h : ∀ x ∈ xs, ∀ s, Moves f s (op x s)) (s : State) : Moves f s (Machine.forEach xs op s) :=
  forEach_induction (P := Moves f s) xs (fun x hx t ht => ht.trans (h x hx t)) (refl f s)

/-! ### The plain changes -/

theorem modBerth (f : Face) (g : Berth → Berth) (s : State) : Moves f s (s.modBerth f g) :=
  of_modFace

theorem modFi (f : Face) (g : Interlock → Interlock) (s : State) : Moves f s (s.modFi f g) :=
  of_modFace

theorem latch (f : Face) (k : Attn) (s : State) : Moves f s (s.latch f k) :=
  of_modFace

/-- A change of a bay that keeps its static fields, its overflow mark and its handle states. -/
theorem modBay (f : Face) (b : Nat) {g : Bay → Bay} (s : State)
    (hs : ∀ x, (g x).static = x.static := by intro _; rfl)
    (hm : ∀ x, ((g x).overflow, (g x).platformHandle, (g x).trackHandle) =
      (x.overflow, x.platformHandle, x.trackHandle) := by intro _; rfl) :
    Moves f s (s.modBay f b g) := by
  refine of_modFace (g := fun y => { y with bays := y.bays.map fun x => if x.num == b then g x else x })
    ⟨rfl, rfl, rfl, rfl, rfl, ?_, rfl, rfl⟩ ?_ rfl rfl
  · rw [List.map_map]
    refine List.map_congr_left fun x _ => ?_
    simp only [Function.comp]
    split
    · exact hs x
    · rfl
  · rw [List.map_map]
    refine List.map_congr_left fun x _ => ?_
    simp only [Function.comp]
    split
    · exact hm x
    · rfl

theorem auRefresh (f : Face) (s : State) : Moves f s (Machine.auRefresh f s) := by
  unfold Machine.auRefresh State.modAu
  exact of_modFace

theorem queueCommand (f : Face) (b : Nat) (c : DoorCommand) (s : State) : Moves f s (Machine.queueCommand f b c s) := by
  unfold Machine.queueCommand State.modLine
  exact of_modFace

/-! ### FI -/

theorem fiUpdate (f : Face) (g : Conditions → Conditions) (s : State) : Moves f s (Machine.fiUpdate f g s) := by
  unfold Machine.fiUpdate
  dsimp only
  split
  · exact modFi f _ s
  · exact (modFi f _ s).trans (latch f _ _)

theorem fiEnterMode (f : Face) (m : Mode) (s : State) : Moves f s (Machine.fiEnterMode f m s) :=
  ((modFi f _ s).trans (fiUpdate f _ _)).trans (latch f _ _)

theorem fiCensus (f : Face) (s : State) : Moves f s (Machine.fiCensus f s) := by
  unfold Machine.fiCensus
  dsimp only
  split
  · split
    · exact fiEnterMode f _ s
    · exact (modFi f _ s).trans (latch f _ _)
    · exact refl f s
  · exact refl f s

theorem fiRequest (f : Face) (s : State) : Moves f s (Machine.fiRequest f s) := by
  unfold Machine.fiRequest
  split
  · exact (modFi f _ s).trans (fiEnterMode f _ _)
  · exact refl f s

theorem fiBayState (f : Face) (s : State) : Moves f s (Machine.fiBayState f s) :=
  ((fiUpdate f _ s).trans (fiCensus f _)).trans (fiRequest f _)

theorem fiLock (f : Face) (s : State) : Moves f s (Machine.fiLock f s) := (fiUpdate f _ s).trans (fiRequest f _)

theorem fiIsolated (f : Face) (s : State) : Moves f s (Machine.fiIsolated f s) := (fiUpdate f _ s).trans (fiCensus f _)

theorem fiNode (f : Face) (s : State) : Moves f s (Machine.fiNode f s) := (fiUpdate f _ s).trans (fiCensus f _)

theorem fiPresence (f : Face) (s : State) : Moves f s (Machine.fiPresence f s) := fiUpdate f _ s

theorem fiRelease (f : Face) (s : State) : Moves f s (Machine.fiRelease f s) := fiUpdate f _ s

theorem fiPassEnd (f : Face) (s : State) : Moves f s (Machine.fiPassEnd f s) := by
  unfold Machine.fiPassEnd
  dsimp only
  split
  · exact (modFi f _ s).trans (fiCensus f _)
  · exact fiCensus f s

theorem fiAbandon (f : Face) (s : State) : Moves f s (Machine.fiAbandon f s) := by
  unfold Machine.fiAbandon
  split
  · exact (modFi f _ s).trans (latch f _ _)
  · exact refl f s

/-! ### Entrapment, berth changes, closing completion -/

/-- R114: the test sets flags of records and latches ENTRAPMENT. -/
theorem entrapmentTest (f : Face) (sel : Presence → Bool) (s : State) : Moves f s (Machine.entrapmentTest f sel s) := by
  have flags : ∀ (g : Presence → Bool), Moves f s
      { s with presence := s.presence.map fun r => if g r then { r with reported := true } else r } := fun g =>
    { rest := rfl
      bare := by
        simp only [State.presenceBare, List.map_map]
        refine List.map_congr_left fun r _ => ?_
        simp only [Function.comp]
        split <;> rfl
      others := fun _ _ => rfl
      fixed := ⟨rfl, rfl, rfl, rfl, rfl, rfl, rfl, rfl⟩
      marks := rfl
      overflow := rfl
      link := rfl }
  unfold Machine.entrapmentTest
  dsimp only
  split
  · exact (flags _).trans (latch f _ _)
  · exact flags _

/-- R31: a change of the berth record keeps to the relation where DS's event does. -/
theorem berthChange (f : Face) (g : Berth → Berth) {ds : State → State} (hd : ∀ s, Moves f s (ds s)) (s : State) :
    Moves f s (Machine.berthChange f g ds s) := by
  unfold Machine.berthChange
  dsimp only
  split
  · exact modBerth f g s
  · exact ((((modBerth f g s).trans (latch f _ _)).trans (auRefresh f _)).trans (hd _)).trans
      ((entrapmentTest f _ _).trans (fiRequest f _))

theorem closingTest (f : Face) (s : State) : Moves f s (Machine.closingTest f s) := by
  unfold Machine.closingTest
  split
  · exact berthChange f _ (fun t => refl f t) s
  · exact refl f s

theorem bcBayState (f : Face) (b : Nat) (s : State) : Moves f s (Machine.bcBayState f b s) := by
  unfold Machine.bcBayState
  split
  · split
    · exact closingTest f s
    · split
      · exact refl f s
      · exact (berthChange f _ (fun t => refl f t) s).trans (closingTest f _)
    all_goals exact refl f s
  · exact refl f s

theorem handBayState (f : Face) (b : Nat) (s : State) : Moves f s (Machine.handBayState f b s) :=
  ((bcBayState f b s).trans (entrapmentTest f _ _)).trans (fiBayState f _)

/-! ### Doors -/

theorem sendCommand (f : Face) (b : Nat) (c : DoorCommand) (s : State) : Moves f s (Machine.sendCommand f b c s) := by
  unfold Machine.sendCommand
  dsimp only
  have h := modBay f b (g := fun x => { x with lastCommand := some c }) s
  split
  · exact h.trans (queueCommand f b c _)
  · exact h

theorem sendIfNew (f : Face) (b : Nat) (c : DoorCommand) (s : State) : Moves f s (Machine.sendIfNew f b c s) := by
  unfold Machine.sendIfNew
  split
  · split
    · exact refl f s
    · exact sendCommand f b c s
  · exact refl f s

/-- A change of a bay's dynamic fields, with what a change of its state brings. -/
theorem moveBay (f : Face) (b : Nat) {g : Bay → Bay} (s : State)
    (hs : ∀ x, (g x).static = x.static := by intro _; rfl)
    (hm : ∀ x, ((g x).overflow, (g x).platformHandle, (g x).trackHandle) =
      (x.overflow, x.platformHandle, x.trackHandle) := by intro _; rfl) :
    Moves f s (Machine.moveBay f b g s) := by
  unfold Machine.moveBay
  split
  · exact refl f s
  · split
    · exact modBay f b s hs hm
    · exact (modBay f b s hs hm).trans (handBayState f b _)

theorem setIsolated (f : Face) (b : Nat) (v : Bool) (s : State) : Moves f s (Machine.setIsolated f b v s) := by
  unfold Machine.setIsolated
  split
  · exact refl f s
  · split
    · exact refl f s
    · exact (modBay f b s).trans (fiIsolated f _)

theorem setLock (f : Face) (b : Nat) (v : Bool) (s : State) : Moves f s (Machine.setLock f b v s) := by
  unfold Machine.setLock
  split
  · exact refl f s
  · split
    · exact refl f s
    · exact (modBay f b s).trans (fiLock f _)

theorem startWarning (f : Face) (b : Nat) (s : State) : Moves f s (Machine.startWarning f b s) :=
  moveBay f b s

theorem faultBay (f : Face) (b : Nat) (s : State) : Moves f s (Machine.faultBay f b s) :=
  ((sendCommand f b _ s).trans (moveBay f b _)).trans (latch f _ _)

theorem toUnlocking (f : Face) (b : Nat) (s : State) : Moves f s (Machine.toUnlocking f b s) :=
  (sendIfNew f b _ s).trans (moveBay f b _)

theorem toClosing (f : Face) (b : Nat) (s : State) : Moves f s (Machine.toClosing f b s) :=
  (sendCommand f b _ s).trans (moveBay f b _)

theorem toHeldOpen (f : Face) (b : Nat) (s : State) : Moves f s (Machine.toHeldOpen f b s) :=
  (moveBay f b s).trans (latch f _ _)

theorem toOpen (f : Face) (b : Nat) (s : State) : Moves f s (Machine.toOpen f b s) :=
  moveBay f b s

theorem toClosedLocked (f : Face) (b : Nat) (s : State) : Moves f s (Machine.toClosedLocked f b s) :=
  moveBay f b s

theorem sendRelease (f : Face) (b : Nat) (s : State) : Moves f s (Machine.sendRelease f b s) := sendIfNew f b _ s

theorem toReleased (f : Face) (b : Nat) (s : State) : Moves f s (Machine.toReleased f b s) :=
  (moveBay f b s).trans (sendRelease f b _)

theorem uncover (f : Face) (b : Nat) (s : State) : Moves f s (Machine.uncover f b s) := by
  unfold Machine.uncover
  split
  · exact refl f s
  · split
    · split
      · exact (sendCommand f b _ s).trans (toClosedLocked f b _)
      · exact toClosedLocked f b s
    · split
      · exact (sendIfNew f b _ s).trans (toOpen f b _)
      · exact startWarning f b s

theorem dsCoverage (f : Face) (b : Nat) (s : State) : Moves f s (Machine.dsCoverage f b s) := by
  unfold Machine.dsCoverage
  split
  · exact refl f s
  · split
    all_goals first
      | exact uncover f b s | exact sendRelease f b s | exact toReleased f b s | exact refl f s

theorem openingReport (f : Face) (b : Nat) (r : BayReport) (s : State) : Moves f s (Machine.openingReport f b r s) := by
  unfold Machine.openingReport
  split
  · exact refl f s
  · split
    · split
      · exact toOpen f b s
      · exact startWarning f b s
    · split
      · exact moveBay f b s
      · exact refl f s

theorem reopenByReport (f : Face) (b : Nat) (r : BayReport) (s : State) : Moves f s (Machine.reopenByReport f b r s) :=
  ((sendCommand f b _ s).trans (toUnlocking f b _)).trans (openingReport f b r _)

theorem resolveUnknown (f : Face) (b : Nat) (r : BayReport) (s : State) : Moves f s (Machine.resolveUnknown f b r s) := by
  unfold Machine.resolveUnknown
  split
  · exact refl f s
  · split
    · exact refl f s
    · split
      · exact (sendCommand f b _ s).trans (moveBay f b _)
      · split
        · exact toReleased f b s
        · split
          · exact toClosedLocked f b s
          · split
            · exact reopenByReport f b r s
            · exact startWarning f b s

theorem restoreByReport (f : Face) (b : Nat) (r : BayReport) (s : State) :
    Moves f s (Machine.restoreByReport f b r s) := by
  unfold Machine.restoreByReport
  dsimp only
  have h := modBay f b (g := fun x => { x with restorePending := false }) s
  split
  · exact h.trans (toReleased f b _)
  · split
    · exact h.trans (toClosedLocked f b _)
    · split
      · exact h.trans (reopenByReport f b r _)
      · exact h.trans (startWarning f b _)

theorem reopeningReport (f : Face) (b : Nat) (r : BayReport) (s : State) :
    Moves f s (Machine.reopeningReport f b r s) := by
  unfold Machine.reopeningReport
  split
  · exact refl f s
  · split
    · split
      · exact toHeldOpen f b s
      · split
        · exact modBay f b s
        · exact startWarning f b s
    · exact refl f s

theorem stateReport (f : Face) (b : Nat) (r : BayReport) (s : State) : Moves f s (Machine.stateReport f b r s) := by
  unfold Machine.stateReport
  split
  · exact refl f s
  · split
    · exact resolveUnknown f b r s
    · split
      · exact restoreByReport f b r s
      · split
        all_goals first
          | exact refl f s
          | (split
             · exact faultBay f b s
             · first
               | exact openingReport f b r s
               | exact reopeningReport f b r s
               | (split
                  · exact toClosedLocked f b s
                  · exact refl f s))

/-- R77: a report taken by DS. -/
theorem dsReport (f : Face) (b : Nat) (r : BayReport) (s : State) : Moves f s (Machine.dsReport f b r s) :=
  ((modBay f b s).trans (setLock f b _ _)).trans (stateReport f b r _)

theorem dsLost (f : Face) (b : Nat) (s : State) : Moves f s (Machine.dsLost f b s) := by
  unfold Machine.dsLost
  split
  · exact refl f s
  · dsimp only
    split
    · exact ((modBay f b s).trans (setLock f b false _)).trans (moveBay f b _)
    · split
      · exact ((modBay f b s).trans (setLock f b false _)).trans (moveBay f b _)
      · exact ((modBay f b s).trans (setLock f b false _)).trans
          (((setIsolated f b true _).trans (sendCommand f b _ _)).trans (moveBay f b _))

theorem openBayEvent (f : Face) (b : Nat) (s : State) : Moves f s (Machine.openBayEvent f b s) := by
  unfold Machine.openBayEvent
  split
  · exact refl f s
  · split
    all_goals first
      | exact refl f s
      | exact toUnlocking f b s
      | exact sendRelease f b s
      | (split
         · exact (modBay f b s).trans (toOpen f b _)
         · exact toUnlocking f b s)

theorem openEvent (f : Face) (s : State) : Moves f s (Machine.openEvent f s) :=
  forEach _ (fun b _ t => openBayEvent f b t) s

theorem closeBayEvent (f : Face) (b : Nat) (s : State) : Moves f s (Machine.closeBayEvent f b s) := by
  unfold Machine.closeBayEvent
  split
  · split
    · exact startWarning f b s
    · exact refl f s
  · exact refl f s

theorem closeEvent (f : Face) (s : State) : Moves f s (Machine.closeEvent f s) :=
  forEach _ (fun b _ t => closeBayEvent f b t) s

theorem leaveMaintenance (f : Face) (s : State) : Moves f s (Machine.leaveMaintenance f s) :=
  forEach _ (fun b _ t => closeBayEvent f b t) s

theorem maskDropped (f : Face) (s : State) : Moves f s (Machine.maskDropped f s) := by
  refine forEach _ (fun b _ t => ?_) s
  unfold maskDroppedBay
  split
  · split
    · exact sendRelease f b t
    · exact refl f t
  · exact refl f t

theorem panelClose (f : Face) (s : State) : Moves f s (Machine.panelClose f s) := by
  refine forEach _ (fun b _ t => ?_) s
  unfold panelCloseBay
  split
  · exact refl f t
  · split
    · split <;> first | exact startWarning f b t | exact refl f t
    · exact refl f t

theorem reopen (f : Face) (b : Nat) (x : Bay) (s : State) : Moves f s (Machine.reopen f b x s) := by
  unfold Machine.reopen
  dsimp only
  split
  · split
    · exact (sendCommand f b _ s).trans (moveBay f b _)
    · exact (sendCommand f b _ s).trans (toHeldOpen f b _)
  · split
    · exact (sendCommand f b _ s).trans (moveBay f b _)
    · exact (sendCommand f b _ s).trans (toHeldOpen f b _)

theorem onset (f : Face) (b : Nat) (s : State) : Moves f s (Machine.onset f b s) := by
  unfold Machine.onset
  split
  · exact refl f s
  · split
    all_goals first
      | exact refl f s
      | exact reopen f b _ s
      | exact modBay f b s

theorem clearance (f : Face) (b : Nat) (s : State) : Moves f s (Machine.clearance f b s) := by
  unfold Machine.clearance
  split
  · exact refl f s
  · split
    all_goals first
      | exact refl f s
      | exact startWarning f b s
      | (split
         · exact refl f s
         · split
           · exact toHeldOpen f b s
           · exact startWarning f b s)

theorem expireBay (f : Face) (b : Nat) (k : DeadlineKind) (s : State) : Moves f s (Machine.expireBay f b k s) := by
  unfold Machine.expireBay
  split
  · exact refl f s
  · split
    · split
      · exact toClosing f b s
      all_goals exact faultBay f b s
    · exact refl f s

/-! ### Berths -/

theorem dropChange (f : Face) (g : Berth → Berth) (s : State) : Moves f s (Machine.dropChange f g s) := by
  unfold Machine.dropChange
  refine berthChange f g (fun t => ?_) s
  split
  · exact maskDropped f t
  · exact refl f t

theorem enterService (f : Face) (s : State) : Moves f s (Machine.enterService f s) :=
  berthChange f _ (openEvent f) s

theorem enterClosing (f : Face) (s : State) : Moves f s (Machine.enterClosing f s) :=
  (berthChange f _ (closeEvent f) s).trans (closingTest f _)

theorem takeAlignment (f : Face) (r : AlignmentResult) (s : State) : Moves f s (Machine.takeAlignment f r s) := by
  unfold Machine.takeAlignment
  split
  · dsimp only
    split
    · exact berthChange f _ (fun t => refl f t) s
    · exact (berthChange f _ (fun t => refl f t) s).trans (latch f _ _)
  · exact berthChange f _ (fun t => refl f t) s

theorem alignStanding (f : Face) (s : State) : Moves f s (Machine.alignStanding f s) := by
  unfold Machine.alignStanding
  split
  · exact refl f s
  · split
    · exact takeAlignment f _ s
    · exact refl f s

theorem panelOpen (f : Face) (s : State) : Moves f s (Machine.panelOpen f s).1 := by
  unfold Machine.panelOpen
  dsimp only
  split
  · exact enterService f s
  · exact refl f s

theorem panelCloseBerth (f : Face) (s : State) : Moves f s (Machine.panelCloseBerth f s) := by
  unfold Machine.panelCloseBerth
  split
  · exact enterClosing f s
  · exact refl f s

end Moves

end Sys2Proof.Machine
end

