-- ==== Sys2Proof/Laws/Doors.lean ====
section
/-! SUPPORT. What the operations of DS leave of the bays and of the line: first that the events a change of bay state
brings leave both alone, then the bay's record and the command queue after each operation. -/

namespace Sys2Proof.Machine

/-! ### Events that leave the bays and the line alone -/

/-- The bays and the line of the face are as before, and of the berth no more than its state may differ. -/
structure Hands (f : Face) (s t : State) : Prop extends Moves f s t where
  bays : (t.face f).bays = (s.face f).bays
  line : (t.face f).line = (s.face f).line
  snapshot : (t.face f).berth.snapshot = (s.face f).berth.snapshot

namespace Hands

theorem refl (f : Face) (s : State) : Hands f s s := ⟨Moves.refl f s, rfl, rfl, rfl⟩

theorem trans {f : Face} {s t u : State} (h : Hands f s t) (k : Hands f t u) : Hands f s u :=
  ⟨h.toMoves.trans k.toMoves, k.bays.trans h.bays, k.line.trans h.line, k.snapshot.trans h.snapshot⟩

theorem bay? {f : Face} {s t : State} (h : Hands f s t) (b : Nat) : t.bay? f b = s.bay? f b := by
  unfold State.bay?
  rw [h.bays]

theorem mask {f : Face} {s t : State} (h : Hands f s t) : t.mask f = s.mask f := by
  unfold State.mask
  rw [h.snapshot]

theorem modBerth (f : Face) {g : Berth → Berth} (s : State)
    (hg : (g (s.face f).berth).snapshot = (s.face f).berth.snapshot) : Hands f s (s.modBerth f g) :=
  ⟨Moves.modBerth f g s, by simp, by simp, by simp [hg]⟩

theorem modFi (f : Face) (g : Interlock → Interlock) (s : State) : Hands f s (s.modFi f g) :=
  ⟨Moves.modFi f g s, by simp, by simp, by simp⟩

theorem latch (f : Face) (k : Attn) (s : State) : Hands f s (s.latch f k) :=
  ⟨Moves.latch f k s, by simp, by simp, by simp⟩

theorem auRefresh (f : Face) (s : State) : Hands f s (Machine.auRefresh f s) :=
  ⟨Moves.auRefresh f s, by simp [Machine.auRefresh], by simp [Machine.auRefresh], by simp [Machine.auRefresh]⟩

theorem fiUpdate (f : Face) (g : Conditions → Conditions) (s : State) : Hands f s (Machine.fiUpdate f g s) := by
  unfold Machine.fiUpdate
  dsimp only
  split
  · exact modFi f _ s
  · exact (modFi f _ s).trans (latch f _ _)

theorem fiEnterMode (f : Face) (m : Mode) (s : State) : Hands f s (Machine.fiEnterMode f m s) :=
  ((modFi f _ s).trans (fiUpdate f _ _)).trans (latch f _ _)

theorem fiCensus (f : Face) (s : State) : Hands f s (Machine.fiCensus f s) := by
  unfold Machine.fiCensus
  dsimp only
  split
  · split
    · exact fiEnterMode f _ s
    · exact (modFi f _ s).trans (latch f _ _)
    · exact refl f s
  · exact refl f s

theorem fiRequest (f : Face) (s : State) : Hands f s (Machine.fiRequest f s) := by
  unfold Machine.fiRequest
  split
  · exact (modFi f _ s).trans (fiEnterMode f _ _)
  · exact refl f s

theorem fiBayState (f : Face) (s : State) : Hands f s (Machine.fiBayState f s) :=
  ((fiUpdate f _ s).trans (fiCensus f _)).trans (fiRequest f _)

theorem fiLock (f : Face) (s : State) : Hands f s (Machine.fiLock f s) := (fiUpdate f _ s).trans (fiRequest f _)

theorem fiIsolated (f : Face) (s : State) : Hands f s (Machine.fiIsolated f s) := (fiUpdate f _ s).trans (fiCensus f _)

theorem fiNode (f : Face) (s : State) : Hands f s (Machine.fiNode f s) := (fiUpdate f _ s).trans (fiCensus f _)

theorem fiPassEnd (f : Face) (s : State) : Hands f s (Machine.fiPassEnd f s) := by
  unfold Machine.fiPassEnd
  dsimp only
  split
  · exact (modFi f _ s).trans (fiCensus f _)
  · exact fiCensus f s

theorem fiAbandon (f : Face) (s : State) : Hands f s (Machine.fiAbandon f s) := by
  unfold Machine.fiAbandon
  split
  · exact (modFi f _ s).trans (latch f _ _)
  · exact refl f s

theorem entrapmentTest (f : Face) (sel : Presence → Bool) (s : State) : Hands f s (Machine.entrapmentTest f sel s) := by
  refine ⟨Moves.entrapmentTest f sel s, ?_, ?_, ?_⟩ <;> unfold Machine.entrapmentTest <;> dsimp only <;> split <;> first | rfl | simp

theorem berthChange (f : Face) {g : Berth → Berth} {ds : State → State} (hd : ∀ s, Hands f s (ds s)) (s : State)
    (hg : (g (s.face f).berth).snapshot = (s.face f).berth.snapshot) : Hands f s (Machine.berthChange f g ds s) := by
  unfold Machine.berthChange
  dsimp only
  split
  · exact modBerth f s hg
  · exact ((((modBerth f s hg).trans (latch f _ _)).trans (auRefresh f _)).trans (hd _)).trans
      ((entrapmentTest f _ _).trans (fiRequest f _))

theorem closingTest (f : Face) (s : State) : Hands f s (Machine.closingTest f s) := by
  unfold Machine.closingTest
  split
  · exact berthChange f (fun t => refl f t) s rfl
  · exact refl f s

theorem bcBayState (f : Face) (b : Nat) (s : State) : Hands f s (Machine.bcBayState f b s) := by
  unfold Machine.bcBayState
  split
  · split
    · exact closingTest f s
    · split
      · exact refl f s
      · exact (berthChange f (fun t => refl f t) s rfl).trans (closingTest f _)
    all_goals exact refl f s
  · exact refl f s

/-- R77: what a change of bay state brings leaves the bays and the line alone. -/
theorem handBayState (f : Face) (b : Nat) (s : State) : Hands f s (Machine.handBayState f b s) :=
  ((bcBayState f b s).trans (entrapmentTest f _ _)).trans (fiBayState f _)

end Hands

/-! ### FI in one equation -/

/-- R154: an update of FI's copies is `FaceState.proved` of the new copies. -/
theorem fiUpdate_eq (f : Face) (g : Conditions → Conditions) (s : State) :
    fiUpdate f g s = s.modFace f fun x => x.proved (g x.fi.conditions) := by
  unfold fiUpdate
  dsimp only
  split
  · next h =>
    simp only [State.modFi, State.modFace, State.faces_get, FaceState.proved, h, if_true]
  · next h =>
    rw [State.latch, State.modFi, State.modFace_modFace]
    simp only [State.modFace, State.faces_get, FaceState.proved, h, if_false]

/-- R98: a deadline armed at the present. -/
theorem armed_eq (s : State) (f : Face) (k : DeadlineKind) (ms : Nat) : some (armed s f k ms) = s.deadline f k ms := rfl

/-! ### The record of a bay after an operation -/

/-- What an operation leaves of the bays of a face: the record of bay `b` becomes `g` of it, the others stay. -/
def OnBay (f : Face) (b : Nat) (g : Bay → Bay) (s t : State) : Prop :=
  ∀ c, t.bay? f c = if c = b then (s.bay? f c).map g else s.bay? f c

theorem OnBay.trans {f : Face} {b : Nat} {g h : Bay → Bay} {s t u : State} (p : OnBay f b g s t)
    (q : OnBay f b h t u) : OnBay f b (fun x => h (g x)) s u := by
  intro c
  rw [q c, p c]
  split <;> simp [Function.comp_def]

/-- A change that agrees on the bay's present record may be named in its place. -/
theorem OnBay.congr {f : Face} {b : Nat} {g h : Bay → Bay} {s t : State} (p : OnBay f b g s t)
    (e : ∀ x, s.bay? f b = some x → g x = h x) : OnBay f b h s t := by
  intro c
  rw [p c]
  split
  · next hc =>
    subst hc
    cases hx : s.bay? f c with
    | none => rfl
    | some x => simp [e x hx]
  · rfl

theorem Hands.onBay {f : Face} {s t : State} (h : Hands f s t) (b : Nat) : OnBay f b (fun x => x) s t := by
  intro c
  rw [h.bay? c]
  split <;> simp

/-- Where the face has no such bay, every change of it leaves the bays alone. -/
theorem onBay_none {f : Face} {b : Nat} {s : State} (h : s.bay? f b = none) (g : Bay → Bay) : OnBay f b g s s := by
  intro c
  split
  · next hc => rw [hc, h]; rfl
  · rfl

/-- A bay that the change would leave as it is. -/
theorem onBay_same {f : Face} {b : Nat} {s : State} {x : Bay} {g : Bay → Bay} (h : s.bay? f b = some x) (e : g x = x) :
    OnBay f b g s s := by
  intro c
  split
  · next hc => rw [hc, h, Option.map_some, e]
  · rfl

theorem onBay_modBay (f : Face) (b : Nat) {g : Bay → Bay} (s : State)
    (hg : ∀ x, (g x).num = x.num := by intro _; rfl) : OnBay f b g s (s.modBay f b g) :=
  fun c => State.bay?_modBay s f b c g hg

/-- A command in the queue leaves the bays alone. -/
theorem bay?_queueCommand (f : Face) (b c : Nat) (k : DoorCommand) (s : State) :
    (queueCommand f b k s).bay? f c = s.bay? f c := by
  simp [queueCommand, State.bay?]

/-- R76: the bay takes its last command. -/
theorem onBay_sendCommand (f : Face) (b : Nat) (k : DoorCommand) (s : State) :
    OnBay f b (fun x => { x with lastCommand := some k }) s (sendCommand f b k s) := by
  have h : OnBay f b (fun x => { x with lastCommand := some k }) s (s.modBay f b fun x => { x with lastCommand := some k }) :=
    onBay_modBay f b s
  unfold sendCommand
  dsimp only
  split
  · intro c
    rw [bay?_queueCommand]
    exact h c
  · exact h

/-- R80: a command sent where it is new: the bay's last command is it in any case. -/
theorem onBay_sendIfNew (f : Face) (b : Nat) (k : DoorCommand) (s : State) :
    OnBay f b (fun x => { x with lastCommand := some k }) s (sendIfNew f b k s) := by
  unfold sendIfNew
  split
  · next x hx =>
    split
    · next hk => exact onBay_same hx (by rw [← hk])
    · exact onBay_sendCommand f b k s
  · next hx => exact onBay_none hx _

/-- R77: a change of a bay, whatever its change of state brings. -/
theorem onBay_moveBay (f : Face) (b : Nat) {g : Bay → Bay} (s : State)
    (hg : ∀ x, (g x).num = x.num := by intro _; rfl) : OnBay f b g s (moveBay f b g s) := by
  unfold moveBay
  split
  · next hx => exact onBay_none hx g
  · split
    · exact onBay_modBay f b s hg
    · exact (onBay_modBay f b s hg).trans ((Hands.handBayState f b _).onBay b)

theorem onBay_setIsolated (f : Face) (b : Nat) (v : Bool) (s : State) :
    OnBay f b (fun x => { x with isolated := v }) s (setIsolated f b v s) := by
  unfold setIsolated
  split
  · next hx => exact onBay_none hx _
  · next x hx =>
    split
    · next hv => exact onBay_same hx (by rw [← hv])
    · exact OnBay.congr ((onBay_modBay f b s).trans ((Hands.fiIsolated f _).onBay b)) fun _ _ => rfl

theorem onBay_setLock (f : Face) (b : Nat) (v : Bool) (s : State) :
    OnBay f b (fun x => { x with lockConfirmed := v }) s (setLock f b v s) := by
  unfold setLock
  split
  · next hx => exact onBay_none hx _
  · next x hx =>
    split
    · next hv => exact onBay_same hx (by rw [← hv])
    · exact OnBay.congr ((onBay_modBay f b s).trans ((Hands.fiLock f _).onBay b)) fun _ _ => rfl

theorem bay?_num {s : State} {f : Face} {b : Nat} {x : Bay} (h : s.bay? f b = some x) : x.num = b := by
  have := List.find?_some h
  simpa using this

/-- R84: a bay whose warning period starts. -/
theorem onBay_startWarning (f : Face) (b : Nat) (s : State) : OnBay f b (s.warned f) s (startWarning f b s) := by
  unfold startWarning
  refine OnBay.congr (onBay_moveBay f b s) fun x hx => ?_
  simp only [State.warned, bay?_num hx, armed_eq]

/-- R90: a bay that faults. -/
theorem onBay_faultBay (f : Face) (b : Nat) (s : State) : OnBay f b Bay.faultedNow s (faultBay f b s) := by
  unfold faultBay
  exact OnBay.congr
    (((onBay_sendCommand f b .hold s).trans (onBay_moveBay f b _)).trans ((Hands.latch f .motionFault _).onBay b))
    fun _ _ => rfl

/-- R80: entry to UNLOCKING with OPEN. -/
theorem onBay_toUnlocking (f : Face) (b : Nat) (s : State) :
    OnBay f b
      (fun x =>
        { x with
          state := .unlocking, reopens := 0, liveWarning := none, lastCommand := some .open
          deadline := s.deadline f .unlock (s.face f).config.unlockLimit }) s (toUnlocking f b s) := by
  unfold toUnlocking
  exact OnBay.congr ((onBay_sendIfNew f b .open s).trans (onBay_moveBay f b _)) fun _ _ => rfl

/-- R84: the end of a warning. -/
theorem onBay_toClosing (f : Face) (b : Nat) (s : State) :
    OnBay f b
      (fun x =>
        { x with
          state := .closing, liveWarning := none, lastCommand := some .close
          deadline := s.deadline f .close (s.face f).config.closeLimit }) s (toClosing f b s) := by
  unfold toClosing
  exact OnBay.congr ((onBay_sendCommand f b .close s).trans (onBay_moveBay f b _)) fun _ _ => rfl

theorem onBay_toOpen (f : Face) (b : Nat) (s : State) :
    OnBay f b (fun x => { x with state := .open, deadline := none, liveWarning := none }) s (toOpen f b s) := by
  unfold toOpen
  exact onBay_moveBay f b s

theorem onBay_toClosedLocked (f : Face) (b : Nat) (s : State) :
    OnBay f b (fun x => { x with state := .closedLocked, deadline := none, liveWarning := none, reopens := 0 }) s
      (toClosedLocked f b s) := by
  unfold toClosedLocked
  exact onBay_moveBay f b s

theorem onBay_toHeldOpen (f : Face) (b : Nat) (s : State) :
    OnBay f b (fun x => { x with state := .heldOpen, deadline := none }) s (toHeldOpen f b s) := by
  unfold toHeldOpen
  exact OnBay.congr ((onBay_moveBay f b s).trans ((Hands.latch f .reopenLimit _).onBay b)) fun _ _ => rfl

/-- R95: the release command of a RELEASED bay. -/
theorem onBay_sendRelease (f : Face) (b : Nat) (s : State) :
    OnBay f b (fun x => { x with lastCommand := some (releaseCommand s f b) }) s (sendRelease f b s) :=
  onBay_sendIfNew f b _ s

/-- R80: an open event on a bay. -/
theorem onBay_openBayEvent (f : Face) (b : Nat) (s : State) : OnBay f b (s.opened f) s (openBayEvent f b s) := by
  unfold openBayEvent
  split
  · next hx => exact onBay_none hx _
  · next x hx =>
    have hn := bay?_num hx
    have only : ∀ y, s.bay? f b = some y → y = x := fun y hy => by simpa [hx] using hy.symm
    split
    all_goals (next hs =>
      first
      | exact onBay_same hx (by simp [State.opened, hs])
      | exact OnBay.congr (onBay_toUnlocking f b s) fun y hy => by rw [only y hy]; simp [State.opened, hs]
      | exact OnBay.congr (onBay_sendRelease f b s) fun y hy => by rw [only y hy]; simp [State.opened, hs, hn]
      | (split
         · next hk =>
           exact OnBay.congr ((onBay_modBay f b s).trans (onBay_toOpen f b _)) fun y hy => by
             rw [only y hy]; simp [State.opened, hs, hk]
         · next hk =>
           exact OnBay.congr (onBay_toUnlocking f b s) fun y hy => by rw [only y hy]; simp [State.opened, hs, hk]))

/-! ### The line after an operation -/

/-- A command that goes into the queue. -/
theorem line_queueCommand (f : Face) (b : Nat) (c : DoorCommand) (s : State) :
    ((queueCommand f b c s).face f).line = (s.face f).line.commanded b c := by
  simp [queueCommand, Line.commanded]

/-- R76: HOLD is always handed on; OPEN and CLOSE on a frozen line are only recorded. -/
theorem line_sendCommand (f : Face) (b : Nat) (c : DoorCommand) (s : State) :
    ((sendCommand f b c s).face f).line =
      if c = .hold ∨ (s.face f).line.frozen = false then (s.face f).line.commanded b c else (s.face f).line := by
  unfold sendCommand
  dsimp only
  split
  · rw [line_queueCommand]
    simp
  · simp

theorem line_moveBay (f : Face) (b : Nat) (g : Bay → Bay) (s : State) :
    ((moveBay f b g s).face f).line = (s.face f).line := by
  unfold moveBay
  split
  · rfl
  · split
    · simp
    · rw [(Hands.handBayState f b _).line]
      simp

theorem line_startWarning (f : Face) (b : Nat) (s : State) :
    ((startWarning f b s).face f).line = (s.face f).line := line_moveBay f b _ s

end Sys2Proof.Machine
end

