-- ==== Sys2Proof/Laws/Line.lean ====
section
/-! SUPPORT. The bay line: node records, what the arbiter may change when the line becomes free, the freeze in one
equation, and the end of a telegram. -/

namespace Sys2Proof.Machine

/-! ### Node records -/

/-- Reading a node record after another was written. -/
theorem Line.node_setNode (l : Line) {a b : Nat} (n : Node) (ha : 1 ≤ a) (ha' : a ≤ 36) (hb : 1 ≤ b) :
    (l.setNode a n).node b = if b = a then n else l.node b := by
  unfold Line.node Line.setNode
  dsimp only
  split
  · next h =>
    subst h
    have : b - 1 < 36 := by omega
    simp [this]
  · next h =>
    have : a - 1 ≠ b - 1 := by omega
    simp [this]

/-- A change of a node record changes the nodes of the line and nothing else. -/
theorem Line.setNode_eq (l : Line) (a : Nat) (n : Node) : l.setNode a n = { l with nodes := (l.setNode a n).nodes } := rfl

/-- R167: the count after a transaction. -/
theorem Node.after_errors_le (n : Node) (ok : Bool) (h : n.errors ≤ 31) : (n.after ok).errors ≤ 31 := by
  unfold Node.after
  dsimp only [Config.errorMax]
  repeat' split
  all_goals first | omega | (simp only; omega)

/-- Link health leaves the last outcome and the identity of a node. -/
theorem Node.after_last (n : Node) (ok : Bool) : (n.after ok).last = n.last ∧ (n.after ok).identity = n.identity := by
  unfold Node.after
  dsimp only
  repeat' split
  all_goals exact ⟨rfl, rfl⟩

/-! ### The arbiter -/

/-- What the arbiter may change: of the line, the transaction in flight, the command queue, the pass slot, the rotation
order, the signal, the preamble owed and the stopping flag; nothing else of the part. -/
structure Arbitrated (f : Face) (s t : State) : Prop where
  rest : t = { s with faces := t.faces }
  others : ∀ g, g ≠ f → t.face g = s.face g
  face : t.face f = { s.face f with line := (t.face f).line }
  line : (t.face f).line =
    { (s.face f).line with
      tx := (t.face f).line.tx, queue := (t.face f).line.queue, passSlot := (t.face f).line.passSlot
      rotation := (t.face f).line.rotation, signal := (t.face f).line.signal
      preambleDue := (t.face f).line.preambleDue, stopping := (t.face f).line.stopping }

namespace Arbitrated

theorem refl (f : Face) (s : State) : Arbitrated f s s := ⟨rfl, fun _ _ => rfl, rfl, rfl⟩

theorem trans {f : Face} {s t u : State} (h : Arbitrated f s t) (k : Arbitrated f t u) : Arbitrated f s u where
  rest := by rw [k.rest, h.rest]
  others := fun g hg => (k.others g hg).trans (h.others g hg)
  face := by rw [k.face, h.face]
  line := by rw [k.line, h.line]

/-- A change of the line that keeps what the arbiter keeps. -/
theorem modLine {f : Face} {s : State} {g : Line → Line}
    (h : g (s.face f).line =
      { (s.face f).line with
        tx := (g (s.face f).line).tx, queue := (g (s.face f).line).queue, passSlot := (g (s.face f).line).passSlot
        rotation := (g (s.face f).line).rotation, signal := (g (s.face f).line).signal
        preambleDue := (g (s.face f).line).preambleDue, stopping := (g (s.face f).line).stopping }) :
    Arbitrated f s (s.modLine f g) := by
  refine ⟨rfl, fun _ hg => State.face_modLine_ne s g hg, ?_, ?_⟩
  · rw [State.face_modLine_same]
  · rw [State.face_modLine_same]
    exact h

theorem rotate (f : Face) (c : PollClass) (s : State) : Arbitrated f s (Machine.rotate f c s) := by
  unfold Machine.rotate
  split
  · exact refl f s
  · exact modLine rfl

theorem beginPoll (f : Face) (cls : TxClass) (a : Nat) (fn : LineFunction) (s : State) :
    Arbitrated f s (Machine.beginPoll f cls a fn s) := modLine rfl

theorem servePoll (f : Face) (c : PollClass) (s : State) : Arbitrated f s (Machine.servePoll f c s) := by
  unfold Machine.servePoll
  dsimp only
  split
  · exact (beginPoll f _ _ _ s).trans (rotate f _ _)
  · split
    · exact refl f s
    · split
      · exact (beginPoll f _ _ _ s).trans (rotate f _ _)
      · exact refl f s
  · split
    · exact ((modLine rfl).trans (beginPoll f _ _ _ _)).trans (rotate f _ _)
    all_goals exact refl f s

theorem serveCommand (f : Face) (s : State) : Arbitrated f s (Machine.serveCommand f s) := by
  unfold Machine.serveCommand
  dsimp only
  split
  · exact refl f s
  · exact modLine rfl

theorem arbitrate (f : Face) (s : State) : Arbitrated f s (Machine.arbitrate f s) := by
  unfold Machine.arbitrate
  split
  · exact serveCommand f s
  · split
    · exact servePoll f _ s
    · exact refl f s

theorem beginPreamble (f : Face) (s : State) : Arbitrated f s (Machine.beginPreamble f s) := modLine rfl

/-- R162, R178, R181: the line becomes free. -/
theorem lineFree (f : Face) (s : State) : Arbitrated f s (Machine.lineFree f s) := by
  unfold Machine.lineFree
  dsimp only
  split
  · exact modLine rfl
  · split
    · exact (modLine rfl).trans (beginPreamble f _)
    · exact (modLine rfl).trans (arbitrate f _)

/-- R162: a window decided earlier closes, and the line becomes free. -/
theorem closeLate (f : Face) (s : State) :
    Arbitrated f (s.modLine f fun l => { l with late := none }) (Machine.closeLate f s) := lineFree f _

/-- The arbiter leaves the bays alone. -/
theorem bay? {f : Face} {s t : State} (h : Arbitrated f s t) (b : Nat) : t.bay? f b = s.bay? f b := by
  unfold State.bay?
  rw [h.face]

theorem nodes {f : Face} {s t : State} (h : Arbitrated f s t) : (t.face f).line.nodes = (s.face f).line.nodes := by
  rw [h.line]

theorem node {f : Face} {s t : State} (h : Arbitrated f s t) (a : Nat) :
    (t.face f).line.node a = (s.face f).line.node a := by
  unfold Line.node
  rw [h.nodes]

end Arbitrated

/-! ### What a restart or a break abandons (R177, R184) -/

/-- What an abandonment changes: of the line, what was in flight and what told of it, the node records and the pass slot. -/
theorem abandonTransaction_line (f : Face) (s : State) :
    ∃ nodes slot, abandonTransaction f s = s.modLine f fun l =>
      { l with
        tx := none, late := none, stopping := false, abandoning := false, nodes := nodes, passSlot := slot } := by
  unfold abandonTransaction
  dsimp only
  split
  · exact ⟨(s.face f).line.nodes, (s.face f).line.passSlot, State.modFace_congr s f rfl⟩
  · next t _ =>
    cases hc : t.cls
    all_goals
      simp only [reduceCtorEq, if_true, if_false, modNode, endPass, State.modLine, State.modFace_modFace]
      exact ⟨_, _, State.modFace_congr s f rfl⟩

/-- R184: at the end of the character in progress the transaction is gone, and the arbiter may act. -/
theorem abandonAtEnd_arbitrated (f : Face) (s : State) : Arbitrated f (abandonTransaction f s) (abandonAtEnd f s) :=
  Arbitrated.lineFree f _

/-- What the end of the character in progress can change: the line of the face. -/
theorem abandonAtEnd_face (f : Face) (s : State) :
    abandonAtEnd f s = { s with faces := (abandonAtEnd f s).faces } ∧
      (∀ g, g ≠ f → (abandonAtEnd f s).face g = s.face g) ∧
      (abandonAtEnd f s).face f = { s.face f with line := ((abandonAtEnd f s).face f).line } := by
  obtain ⟨nodes, slot, h⟩ := abandonTransaction_line f s
  have k := abandonAtEnd_arbitrated f s
  refine ⟨?_, fun g hg => (k.others g hg).trans ?_, ?_⟩
  · have := k.rest
    rw [h] at this
    exact this
  · rw [h, State.face_modLine_ne s _ hg]
  · have := k.face
    rw [h, State.face_modLine_same] at this
    exact this

/-! ### Freeze -/

theorem lineProves_modLine (s : State) (f : Face) (g : Line → Line) :
    (s.modLine f g).lineProves f = ((g (s.face f).line).enabled && !(g (s.face f).line).frozen) := by
  simp [State.lineProves]

/-- R177, R98: a freeze in one equation. -/
theorem freezeLine_eq (f : Face) (s : State) : freezeLine f s = s.modFace f FaceState.frozenNow := by
  unfold freezeLine
  split
  · next h =>
    rw [State.modFace_congr s f (k := fun x => x) (by unfold FaceState.frozenNow; rw [if_pos h]), State.modFace_id]
  · next h =>
    unfold suspendBays fiLine
    rw [fiUpdate_eq, lineProves_modLine, State.modLine, State.modFace_modFace, State.modBays, State.modFace_modFace]
    refine State.modFace_congr s f ?_
    unfold FaceState.frozenNow
    rw [if_neg h]
    simp only [Bool.not_true, Bool.and_false]
    rfl

end Sys2Proof.Machine
end

