-- ==== Sys2Proof/Laws/Millisecond.lean ====
section
/-! SUPPORT. The millisecond of an idle part, part by part: what a receiver, a transmitter and the tick can do to a face. -/

namespace Sys2Proof.Machine

/-! ### Receivers -/

/-- A line character changes no more of the line than the transaction and the window decided earlier. -/
theorem receiveLineChar_line (f : Face) (l : Line) (c : LineChar) :
    ∃ tx late, (receiveLineChar f l c).1 = { l with tx := tx, late := late } := by
  unfold receiveLineChar
  simp only
  repeat' split
  all_goals exact ⟨_, _, rfl⟩

/-- The characters that wait at a line change no more of it. -/
theorem receiveLineChars_line (f : Face) (cs : List LineChar) (l : Line) :
    ∃ tx late, (receiveLineChars f cs l).2.1 = { l with tx := tx, late := late } := by
  induction cs generalizing l with
  | nil => exact ⟨_, _, rfl⟩
  | cons c cs ih =>
    obtain ⟨tx, late, h⟩ := receiveLineChar_line f l c
    unfold receiveLineChars
    split <;> rename_i hc <;> rw [hc] at h <;> simp only at h <;> subst h
    · exact ⟨_, _, rfl⟩
    · exact ih _

/-- The receiver of a train link changes the characters that wait and what it holds. -/
theorem receiveTrain_face (s : State) (f : Face) :
    ∃ waiting held, (receiveTrain s f).1 =
      { s.face f with tlrx := waiting, link := { (s.face f).link with receiving := held } } := by
  unfold receiveTrain
  simp only
  repeat' split
  all_goals exact ⟨_, _, rfl⟩

/-- What both receivers of a face leave of its record. -/
theorem receives_face (s : State) (f : Face) :
    ∃ train held waiting tx late, (receives s f).1 =
      { s.face f with
        tlrx := train, blrx := waiting, link := { (s.face f).link with receiving := held }
        line := { (s.face f).line with tx := tx, late := late } } := by
  obtain ⟨train, held, h⟩ := receiveTrain_face s f
  obtain ⟨tx, late, q⟩ := receiveLineChars_line f (receiveTrain s f).1.blrx (receiveTrain s f).1.line
  refine ⟨train, held, (receives s f).1.blrx, tx, late, ?_⟩
  unfold receives
  simp only
  rw [q, h]

/-- No character waits: the receivers leave the face as it is and complete no command. -/
theorem receives_nothing {s : State} {f : Face} (ht : (s.face f).tlrx = []) (hb : (s.face f).blrx = []) :
    receives s f = (s.face f, []) := by
  have h : receiveTrain s f = (s.face f, none) := by
    unfold receiveTrain
    simp only
    rw [ht]
  unfold receives
  rw [h]
  simp only [hb, receiveLineChars]
  rw [← hb]
  rfl

/-! ### Transmitters -/

/-- A millisecond of sending changes the transmitter alone. -/
theorem FaceState.sendsOn_eq (x : FaceState) : ∃ t, x.sendsOn = { x with tltx := t } := by
  unfold FaceState.sendsOn
  simp only
  repeat' split
  all_goals exact ⟨_, rfl⟩

@[simp] theorem FaceState.sendsOn_line (x : FaceState) : x.sendsOn.line = x.line := by
  obtain ⟨_, e⟩ := FaceState.sendsOn_eq x
  rw [e]

/-- A transmitter with nothing to send stays as it is. -/
theorem FaceState.sendsOn_idle {x : FaceState} (h : x.onTltx = none) : x.sendsOn = x := by
  unfold FaceState.onTltx at h
  unfold FaceState.sendsOn
  cases hc : x.tltx.cut <;> cases ha : x.link.answers <;> simp_all

/-! ### The tick -/

/-- Every face changed in turn: each is changed by its own change. -/
theorem State.face_forEach_modFace (g : Face → FaceState → FaceState) (s : State) (f : Face) :
    (forEach allFaces (fun f s => s.modFace f (g f)) s).face f = g f (s.face f) := by
  cases f <;> rfl

/-- The face that the receivers find in a millisecond: its inputs sampled and its transmitter moved on. -/
theorem face_sent (s : State) (f : Face) :
    (sendAnswers (samplePins s)).face f =
      ({ s.face f with
         pkey := (s.face f).pkey.sampled, popen := (s.face f).popen.sampled.letGo
         pclose := (s.face f).pclose.sampled.letGo } : FaceState).sendsOn := by
  unfold sendAnswers samplePins
  simp only
  rw [State.face_forEach_modFace (fun _ => FaceState.sendsOn), State.face_forEach_modFace]
  rfl

/-- What a receiver takes is decided by its face and the time base. -/
theorem receives_congr {s t : State} {f : Face} (h : s.face f = t.face f) (hn : s.now = t.now) :
    receives s f = receives t f := by
  unfold receives receiveTrain telegramGapDue State.age
  rw [h, hn]

/-- R184: with nothing to abandon the end of a character changes nothing. -/
theorem endCharacter_of_not {f : Face} {s : State} (h : (s.face f).line.abandoning = false) : endCharacter f s = s := by
  unfold endCharacter
  dsimp only
  rw [h]
  rfl

/-- R184: the end of a character changes, of its own face, the line and what waits at BLRX. -/
theorem endCharacter_face (f : Face) (s : State) :
    endCharacter f s = { s with faces := (endCharacter f s).faces } ∧
      (∀ g, g ≠ f → (endCharacter f s).face g = s.face g) ∧
      (endCharacter f s).face f =
        { s.face f with line := ((endCharacter f s).face f).line, blrx := ((endCharacter f s).face f).blrx } := by
  unfold endCharacter
  dsimp only
  split
  · obtain ⟨h, k, e⟩ := abandonAtEnd_face f (s.modFace f fun x =>
      { x with blrx := if (s.face f).line.sending then x.blrx else x.blrx.drop 1 })
    refine ⟨h, fun g hg => (k g hg).trans (State.face_modFace_ne s _ hg), ?_⟩
    rw [e, State.face_modFace_same]
  · exact ⟨rfl, fun _ _ => rfl, rfl⟩

/-- A millisecond's ends of characters leave the rest of the part, and a face that abandons nothing, as they are. -/
theorem endCharacters_face (s : State) :
    forEach allFaces endCharacter s = { s with faces := (forEach allFaces endCharacter s).faces } ∧
      ∀ f, (s.face f).line.abandoning = false → (forEach allFaces endCharacter s).face f = s.face f := by
  have h : ∀ fs s, forEach fs endCharacter s = { s with faces := (forEach fs endCharacter s).faces } ∧
      ∀ f, (s.face f).line.abandoning = false → (forEach fs endCharacter s).face f = s.face f := by
    intro fs
    induction fs with
    | nil => exact fun s => ⟨rfl, fun _ _ => rfl⟩
    | cons g fs ih =>
      intro s
      obtain ⟨e, others, _⟩ := endCharacter_face g s
      obtain ⟨e', rest⟩ := ih (endCharacter g s)
      refine ⟨?_, fun f hf => ?_⟩
      · exact e'.trans (congrArg (fun u : State => { u with faces := (forEach (g :: fs) endCharacter s).faces }) e)
      · have k : (endCharacter g s).face f = s.face f := by
          by_cases hg : f = g
          · subst hg
            rw [endCharacter_of_not hf]
          · exact others f hg
        exact (rest f (by rw [k]; exact hf)).trans k
  exact h allFaces s

/-- The faces of a part after its millisecond are what the receivers make of them, once the characters in progress at a
restart have ended. -/
theorem face_tick {s : State} (h : s.powered = true) (f : Face) :
    (tick s).face f =
      (receives (forEach allFaces endCharacter (sendAnswers (samplePins { s with now := s.now + 1#32 }))) f).1 := by
  unfold tick takeCharacters
  rw [if_pos h]
  generalize forEach allFaces endCharacter (sendAnswers (samplePins { s with now := s.now + 1#32 })) = t
  exact State.face_forEach_modFace (fun f _ => (receives t f).1) t f

/-- A face with nothing to abandon after its millisecond. -/
theorem face_tick_of_not {s : State} (h : s.powered = true) {f : Face} (hf : (s.face f).line.abandoning = false) :
    (tick s).face f = (receives (sendAnswers (samplePins { s with now := s.now + 1#32 })) f).1 := by
  have line : ((sendAnswers (samplePins { s with now := s.now + 1#32 })).face f).line = (s.face f).line := by
    rw [face_sent, FaceState.sendsOn_line]
    rfl
  obtain ⟨rest, faces⟩ := endCharacters_face (sendAnswers (samplePins { s with now := s.now + 1#32 }))
  rw [face_tick h, receives_congr (faces f (by rw [line]; exact hf)) (by rw [rest])]

end Sys2Proof.Machine
end

