-- ==== Sys2Proof/Laws/Port.lean ====
section
/-! SUPPORT. The supervisory port: what a request taken in IDLE comes to, by the work its owner does, and what the edges of an
exchange do. -/

namespace Sys2Proof.Machine

/-- The state in which a request is worked: the port is WORKING on it. -/
def working (q : Request) (s : State) : State := beginWork q (exchanged q.length s)

@[simp] theorem face_working (q : Request) (s : State) (f : Face) : (working q s).face f = s.face f := rfl

/-- A state is its own face-for-face copy with the port of another. -/
theorem working_eq (q : Request) (s : State) : working q s = { s with port := (working q s).port } := rfl

/-- A request taken in IDLE is answered with what its owner's work answers. -/
theorem answers_of {i : Instr} {q : Request} {s t : State} {code : AnswerCode} {data : List Byte}
    {work : State → State × Reply} (h : s.takesRequests) (hq : requestOf i = some q)
    (hx : exec i s = live s (serve q work))
    (hw : work (working q s) = ({ t with port := (working q s).port }, ⟨code, data⟩)) : Answers i s code data t := by
  refine ⟨q, hq, ?_⟩
  obtain ⟨hp, hs⟩ := h
  rw [hx]
  simp only [live, hp, if_true, serve, hs]
  rw [show beginWork q (exchanged q.length s) = working q s from rfl, hw]
  rfl

/-- A request taken in IDLE whose work leaves the port alone is answered with the state that the work leaves. -/
theorem answers_of_work {i : Instr} {q : Request} {s : State} {work : State → State × Reply}
    (h : s.takesRequests) (hq : requestOf i = some q) (hx : exec i s = live s (serve q work))
    (hw : (work (working q s)).1.port = (working q s).port) :
    Answers i s (work (working q s)).2.code (work (working q s)).2.data
      { (work (working q s)).1 with port := s.port } :=
  answers_of h hq hx (by rw [← hw])

/-- R190: a request taken while the port is not IDLE only sets the overrun mark. -/
theorem serve_busy {q : Request} {s : State} (work : State → State × Reply) (h : s.port.state ≠ .idle) :
    serve q work s = overrun (exchanged q.length s) := by
  unfold serve
  cases hs : s.port.state with
  | idle => exact absurd hs h
  | working => rfl
  | answerReady => rfl

/-! ### The checks that come first -/

theorem onFace_some {k : Key} {f : Face} (h : faceOf k.k1 = some f) (work : Face → State → State × Reply) :
    onFace k work = work f := by
  funext s
  simp only [onFace, h]

theorem onFace_none {k : Key} (h : faceOf k.k1 = none) (work : Face → State → State × Reply) (s : State) :
    onFace k work s = (s, reply .noRecord) := by
  simp only [onFace, h]

@[simp] theorem noData_nil (work : State → State × Reply) : noData [] work = work := rfl

theorem noData_bad {data : List Byte} (h : data.isEmpty = false) (work : State → State × Reply) (s : State) :
    noData data work s = (s, reply .badRequest) := by
  cases data with
  | nil => simp at h
  | cons a l => rfl

@[simp] theorem decoded_some {α : Type} (v : α) (work : α → State → State × Reply) :
    decoded (some v) work = work v := rfl

theorem decoded_bad {α : Type} {x : Option α} (h : x.isSome = false) (work : α → State → State × Reply) (s : State) :
    decoded x work s = (s, reply .badRequest) := by
  cases x with
  | none => rfl
  | some v => simp at h

/-- A request whose key names a face outside F0 to F3 is answered NO_RECORD. -/
theorem answers_no_face {i : Instr} {q : Request} {s : State} {work : Face → State → State × Reply} {k : Key}
    (h : s.takesRequests) (hq : requestOf i = some q) (hx : exec i s = live s (serve q (onFace k work)))
    (hk : faceOf k.k1 = none) : Answers i s .noRecord [] s :=
  answers_of h hq hx (by rw [onFace_none hk]; rfl)

/-! ### The exchange, edge by edge (R186) -/

/-- With no command waiting there is nothing to catch up with. -/
theorem caughtUp_of_empty {s : State} (h : s.pending = []) : s.caughtUp = s := by rw [State.caughtUp, h]; rfl

/-- R186: the fall of SVCS at a port with no exchange in progress, what waited being taken. -/
theorem svcsFalls_of_none {s u : State} (hu : s.caughtUp = u) (hp : u.powered = true) (hx : u.port.exchange = none) :
    s.svcsFalls = { u with port := { u.port with exchange := some ⟨exchangeStart u, [], 0⟩ } } := by
  subst hu
  exact if_pos ⟨hp, hx⟩

/-- R186: the edges of SVCK in an exchange take its bits in order, and change nothing else. -/
theorem clocks_of_exchange (bits : List Bool) {s : State} {e : Exchange} (hx : s.port.exchange = some e) :
    s.clocks bits = { s with
      port := { s.port with
        exchange := some { e with taken := e.taken ++ bits, falls := e.falls + bits.length } } } := by
  induction bits generalizing s e with
  | nil => simp [State.clocks, ← hx]
  | cons b bs ih =>
      rw [State.clocks, ih (e := { e with taken := e.taken ++ [b], falls := e.falls + 1 })
        (by simp [State.svckRises, State.svckFalls, hx])]
      simp [State.svckRises, State.svckFalls, Nat.add_comm, Nat.add_left_comm]

/-- R186: without an exchange in progress the edges of SVCK change nothing. -/
theorem clocks_of_none (bits : List Bool) {s : State} (hx : s.port.exchange = none) : s.clocks bits = s := by
  induction bits with
  | nil => rfl
  | cons b bs ih =>
      have h : (s.svckRises b).svckFalls = s := by
        simp only [State.svckRises, State.svckFalls, hx, Option.map_none]
        rw [← hx]
      rw [State.clocks, h, ih]

theorem byteOfBits_dataBits (c : Byte) : byteOfBits (dataBits c) = c := by
  have h : ∀ n < 256, byteOfBits (dataBits (BitVec.ofNat 8 n)) = BitVec.ofNat 8 n := by decide +kernel
  simpa using h c.toNat c.isLt

/-- R186: the eight bits of a character, most significant first, are that character. -/
theorem wholeChars_portBits (c : Byte) (bits : List Bool) : wholeChars (portBits c ++ bits) = c :: wholeChars bits :=
  congrArg (· :: wholeChars bits) (byteOfBits_dataBits c)

/-- R186: the characters of a run of bits that spells `cs`; bits after the last whole one are discarded. -/
theorem wholeChars_of_bits (cs : List Byte) {rest : List Bool} (h : rest.length < 8) :
    wholeChars ((cs.map portBits).flatten ++ rest) = cs := by
  induction cs with
  | nil =>
      match rest, h with
      | [], _ | [_], _ | [_, _], _ | [_, _, _], _ | [_, _, _, _], _ | [_, _, _, _, _], _ | [_, _, _, _, _, _], _
      | [_, _, _, _, _, _, _], _ => rfl
  | cons c cs ih =>
      rw [List.map_cons, List.flatten_cons, List.append_assoc, wholeChars_portBits, ih]

end Sys2Proof.Machine
end

