-- ==== Sys2Proof/Laws/Releases.lean ====
section
/-! SUPPORT. The release list: the tag of a new record is one that none holds, and what an activation and a quiescence
leave of the list and of everything else. -/

namespace Sys2Proof.Machine

/-! ### Tags (R123) -/

theorem tagAfter_range {t : Nat} (h : 1 ≤ t) (h' : t ≤ 255) : 1 ≤ tagAfter t ∧ tagAfter t ≤ 255 := by
  unfold tagAfter
  by_cases c : Config.tagMax ≤ t
  · rw [if_pos c]
    omega
  · rw [if_neg c]
    simp only [Config.tagMax] at c
    omega

/-- The tag `n` places after a tag, cyclically. -/
theorem tagAfter_mod (t n : Nat) :
    tagAfter ((t - 1 + n) % 255 + 1) = (t - 1 + (n + 1)) % 255 + 1 := by
  unfold tagAfter
  by_cases c : Config.tagMax ≤ (t - 1 + n) % 255 + 1
  · rw [if_pos c]
    simp only [Config.tagMax] at c
    omega
  · rw [if_neg c]
    simp only [Config.tagMax] at c
    omega

theorem freeTag_range (rs : List Release) (fuel : Nat) {t : Nat} (h : 1 ≤ t) (h' : t ≤ 255) :
    1 ≤ freeTag rs fuel t ∧ freeTag rs fuel t ≤ 255 := by
  induction fuel generalizing t with
  | zero => exact ⟨h, h'⟩
  | succ n ih =>
    unfold freeTag
    split
    · exact ih (tagAfter_range h h').1 (tagAfter_range h h').2
    · exact ⟨h, h'⟩

/-- Either the search finds a tag that no record holds, or every tag it tried is held. -/
theorem freeTag_or (rs : List Release) (fuel k t : Nat) :
    (rs.any fun r => r.tag == freeTag rs fuel ((t - 1 + k) % 255 + 1)) = false ∨
      ∀ i, k ≤ i → i < k + fuel → (rs.any fun r => r.tag == (t - 1 + i) % 255 + 1) = true := by
  induction fuel generalizing k with
  | zero => exact .inr fun i h1 h2 => absurd h2 (by omega)
  | succ n ih =>
    unfold freeTag
    split
    · next hk =>
      rw [tagAfter_mod]
      rcases ih (k + 1) with hi | hi
      · exact .inl hi
      · refine .inr fun i h1 h2 => ?_
        by_cases e : i = k
        · rw [e]; exact hk
        · exact hi i (by omega) (by omega)
    · next hk => exact .inl (by simpa using hk)

/-- R123: with at most 32 records, the tag of a new one is in 1 to 255 and held by none. -/
theorem freeTag_fresh (rs : List Release) {t : Nat} (hl : rs.length ≤ 32) (h : 1 ≤ t) (h' : t ≤ 255) :
    ∀ r ∈ rs, r.tag ≠ freeTag rs (Config.releaseCapacity + 1) t := by
  have e : t = (t - 1 + 0) % 255 + 1 := by omega
  rcases freeTag_or rs (Config.releaseCapacity + 1) 0 t with hf | hf
  · rw [← e] at hf
    intro r hr hc
    rw [List.any_eq_false] at hf
    exact hf r hr (by simp [hc])
  · exfalso
    have sub : (List.range 33).map (fun i => (t - 1 + i) % 255 + 1) ⊆ rs.map Release.tag := by
      intro x hx
      obtain ⟨i, hi, rfl⟩ := List.mem_map.1 hx
      have hi' : i < 33 := by simpa using hi
      have := hf i (by omega) (by simp only [Config.releaseCapacity]; omega)
      rw [List.any_eq_true] at this
      obtain ⟨r, hr, ht⟩ := this
      exact List.mem_map.2 ⟨r, hr, by simpa using ht⟩
    have nd : ((List.range 33).map fun i => (t - 1 + i) % 255 + 1).Nodup := by
      refine List.Nodup.map_on (fun i hi j hj hij => ?_) List.nodup_range
      have hi' : i < 33 := by simpa using hi
      have hj' : j < 33 := by simpa using hj
      have hij' : (t - 1 + i) % 255 + 1 = (t - 1 + j) % 255 + 1 := hij
      omega
    have := (List.subperm_of_subset nd sub).length_le
    simp at this
    omega

/-! ### Attention of a key -/

/-- A kind latched for a key changes attention sets and nothing else. -/
theorem latchKey_eq (k : ReleaseKey) (a : Attn) (s : State) :
    latchKey k a s = { s with faces := (latchKey k a s).faces } ∧
      ∀ f, (latchKey k a s).face f =
        { s.face f with attn := if f ∈ k.faces then (s.face f).attn ||| a.bit else (s.face f).attn } := by
  unfold latchKey
  have one : ∀ (g : Face) (t : State), t.latch g a = { t with faces := (t.latch g a).faces } := fun _ _ => rfl
  cases k <;> refine ⟨rfl, fun f => ?_⟩ <;>
    simp only [ReleaseKey.faces, ReleaseKey.face?, allFaces, forEach_cons, forEach_nil, List.mem_cons, List.not_mem_nil,
      or_false]
  all_goals try (
    split
    · next h => subst h; simp
    · next h => rw [State.face_latch_ne _ _ h])
  cases f <;> simp [State.latch, State.modFace, State.face, PerFace.set, PerFace.get]

/-! ### Activation and quiescence -/

/-- R125, R132: what an activation does, case by case. -/
theorem activate_cases (k : ReleaseKey) (s : State) :
    (∃ r, s.releaseOf k = some r ∧ r.active = true ∧ activate k s = s) ∨
      (∃ r, s.releaseOf k = some r ∧ r.active = false ∧
        activate k s =
          latchKey k .releaseNew (modRelease k (fun x => { x with active := true, quiescentSince := none }) s)) ∨
      (s.releaseOf k = none ∧ s.releases.length < 32 ∧ activate k s = createRelease k s) ∨
      (s.releaseOf k = none ∧ 32 ≤ s.releases.length ∧ activate k s = failRelease k s) := by
  unfold activate
  cases h : s.releaseOf k with
  | none =>
    by_cases hl : s.releases.length < 32
    · exact .inr (.inr (.inl ⟨rfl, hl, by simp only [Config.releaseCapacity, hl, if_true]⟩))
    · exact .inr (.inr (.inr ⟨rfl, by omega, by simp only [Config.releaseCapacity, hl, if_false]⟩))
  | some r =>
    cases ha : r.active with
    | true => exact .inl ⟨r, rfl, ha, by simp only [ha, if_true]⟩
    | false => exact .inr (.inl ⟨r, rfl, ha, by simp only [ha, Bool.false_eq_true, if_false]⟩)

/-- R126: what a quiescence does, case by case. -/
theorem quiesce_cases (k : ReleaseKey) (s : State) :
    ((∀ r, s.releaseOf k = some r → r.active = false) ∧ quiesce k s = s) ∨
      ∃ r, s.releaseOf k = some r ∧ r.active = true ∧
        quiesce k s =
          latchKey k .releaseQuiescent
            (modRelease k (fun x => { x with active := false, quiescentSince := some s.now }) s) := by
  unfold quiesce
  cases h : s.releaseOf k with
  | none => exact .inl ⟨fun r hr => by simp at hr, rfl⟩
  | some r =>
    cases ha : r.active with
    | true => exact .inr ⟨r, rfl, ha, by simp only [ha, if_true]⟩
    | false => exact .inl ⟨fun q hq => by
        obtain rfl : r = q := by simpa using hq
        exact ha, by simp only [ha, Bool.false_eq_true, if_false]⟩

/-- The record of a key after a change of one key's record that keeps its key. -/
theorem releaseOf_modRelease (k j : ReleaseKey) {g : Release → Release} (hg : ∀ r, (g r).key = r.key) (s : State) :
    (modRelease k g s).releaseOf j = if j = k then (s.releaseOf j).map g else s.releaseOf j := by
  simp only [modRelease, State.releaseOf]
  induction s.releases with
  | nil => simp
  | cons r rs ih =>
    by_cases hb : r.key = k <;> by_cases hc : r.key = j <;> by_cases hcb : j = k <;> simp_all

/-! ### The end of an event of RM -/

/-- R133, R134: an event that changes no coverage and no release standing is handed to nobody. -/
theorem rmEvent_same {event : State → State} {s : State} (hc : ∀ f b, (event s).coverage f b = s.coverage f b)
    (hr : ∀ f, (event s).releaseStanding f = s.releaseStanding f) : rmEvent event s = event s := by
  have h1 : forEach allFaces (handFaceCoverage s) (event s) = event s := by
    refine forEach_fixed _ fun f _ => forEach_fixed _ fun b _ => ?_
    rw [if_pos (hc f b).symm]
  unfold rmEvent
  rw [h1]
  refine forEach_fixed _ fun f _ => ?_
  unfold handFaceRelease
  rw [if_pos (hr f).symm]

/-- R133: a quiescence changes no coverage: a record covers until it is reset. -/
theorem coverage_modRelease (k : ReleaseKey) {g : Release → Release} (hg : ∀ r, (g r).key = r.key) (s : State)
    (f : Face) (b : Nat) : (modRelease k g s).coverage f b = s.coverage f b := by
  have e : ∀ p : ReleaseKey → Bool,
      (s.releases.map fun r => if r.key == k then g r else r).any (fun r => p r.key) = s.releases.any fun r => p r.key := by
    intro p
    rw [List.any_map]
    congr 1
    funext r
    simp only [Function.comp]
    split
    · rw [hg]
    · rfl
  unfold State.coverage State.openingRelease modRelease
  dsimp only [State.face]
  rw [e fun k => k == .trainRequest f || k == .supervisor f || k == .stationEvac,
    e fun k => k == .platformHandle f b || k == .trackHandle f b]
  rfl

/-! ### Presence and its events -/

/-- The records at the other keys after a record left the list. -/
theorem presenceAt_retire_ne (s : State) (f g : Face) (b c : Nat) (z y : Zone) (h : ¬(g = f ∧ c = b ∧ y = z)) :
    (retirePresence f b z s).presenceAt g c y = s.presenceAt g c y := by
  simp only [retirePresence, State.presenceAt, List.find?_filter]
  congr 1
  funext r
  by_cases hr : r.isAt g c y = true
  · have : r.isAt f b z = false := by
      simp only [Presence.isAt, Bool.and_eq_true, beq_iff_eq] at hr
      obtain ⟨⟨h1, h2⟩, h3⟩ := hr
      simp only [Presence.isAt, h1, h2, h3, Bool.and_eq_false_iff, beq_eq_false_iff_ne]
      by_cases e1 : g = f
      · by_cases e2 : c = b
        · exact .inr fun e3 => h ⟨e1, e2, e3⟩
        · exact .inl (.inr e2)
      · exact .inl (.inl e1)
    simp [this]
  · simp [hr]

/-- The record at a key is gone once it left the list. -/
theorem presenceAt_retire (s : State) (f : Face) (b : Nat) (z : Zone) :
    (retirePresence f b z s).presenceAt f b z = none := by
  simp [retirePresence, State.presenceAt, List.find?_eq_none]

/-- R111, R112: what the end of an event of GM adds keeps to the frame of the door operations. -/
theorem gmEvent_moves (f : Face) (b : Nat) {event : State → State} (h : ∀ s, Moves f s (event s)) (s : State) :
    Moves f s (gmEvent f b event s) := by
  unfold gmEvent
  dsimp only
  have h2 : Moves f s
      (if s.presenceStanding f b && !(event s).presenceStanding f b then clearance f b (event s) else event s) := by
    split
    · exact (h s).trans (Moves.clearance f b _)
    · exact h s
  revert h2
  generalize (if s.presenceStanding f b && !(event s).presenceStanding f b then clearance f b (event s) else event s) = t
  intro h2
  split
  · exact h2
  · exact h2.trans (Moves.fiPresence f _)

end Sys2Proof.Machine
end

