-- ==== Sys2Proof/Laws/Telegrams.lean ====
section
/-! SUPPORT. The taking of a telegram: dropped, heard with nothing changed, or heard with its rule's effect; and a change
of the berth record by what it does to the berth state. -/

namespace Sys2Proof.Machine

/-- A berth as a telegram just taken leaves it before its rule (R34). -/
def heardFirst (f : Face) (s : State) : State :=
  (s.modLink f fun l => { l with receiving := none }).modBerth f fun x => { x with lastTelegram := some s.now, silent := false }

/-- R33: with 4 answers waiting a telegram is dropped and counted. -/
theorem takeTelegram_dropped {f : Face} {s : State} (rule : State → State × List Byte)
    (h : 4 ≤ (s.face f).link.answers.length) :
    takeTelegram f rule s =
      s.modFace f fun x =>
        { x with link := { x.link with receiving := none }, berth := { x.berth with dropped := bump x.berth.dropped } } := by
  unfold takeTelegram
  dsimp only
  rw [if_pos (show Config.answerCapacity ≤ (s.face f).link.answers.length from h), State.modLink, State.modBerth,
    State.modFace_modFace]

/-- R33, R34: otherwise its rule is applied to the berth just heard, the silence deadline is seen to, and the one answer
joins the queue. -/
theorem takeTelegram_taken {f : Face} {s : State} (rule : State → State × List Byte)
    (h : (s.face f).link.answers.length < 4) :
    takeTelegram f rule s = queueAnswer f (rule (heardFirst f s)).2 (armSilence f (rule (heardFirst f s)).1) := by
  unfold takeTelegram
  dsimp only
  rw [if_neg (show ¬Config.answerCapacity ≤ (s.face f).link.answers.length by simp only [Config.answerCapacity]; omega)]
  rfl

/-- R33, R34: a telegram whose rule changes nothing is heard and answered, and that is all. -/
theorem takeTelegram_heard {f : Face} {s : State} {rule : State → State × List Byte} {a : List Byte}
    (h : (s.face f).link.answers.length < 4) (hr : rule (heardFirst f s) = (heardFirst f s, a)) :
    takeTelegram f rule s = s.heard f a := by
  rw [takeTelegram_taken rule h, hr]
  unfold heardFirst armSilence queueAnswer State.heard State.modBerth State.modLink
  dsimp only
  rw [State.modFace_modFace, State.modFace_modFace, State.modFace_modFace]
  refine State.modFace_congr s f ?_
  simp only [State.modFace_modFace, State.face_modFace_same, State.after, State.modFace_now]

/-- R31: a change of the berth record that keeps the berth state is that change and no more. -/
theorem berthChange_same {f : Face} {g : Berth → Berth} {s : State} (ds : State → State)
    (h : (g (s.face f).berth).state = (s.face f).berth.state) : berthChange f g ds s = s.modBerth f g := by
  unfold berthChange
  dsimp only
  rw [if_pos h]

/-- R31: a change of the berth state latches BERTH_CHANGE and is handed to AU, DS, GM and FI. -/
theorem berthChange_ne {f : Face} {g : Berth → Berth} {s : State} (ds : State → State)
    (h : (g (s.face f).berth).state ≠ (s.face f).berth.state) :
    berthChange f g ds s =
      fiBerth f (entrapmentFace f (ds (auRefresh f ((s.modBerth f g).latch f .berthChange)))) := by
  unfold berthChange
  dsimp only
  rw [if_neg h]

/-! ### FI's tests -/

/-- R144: a pending request is granted where both conditions of entry hold, and waits where not. -/
theorem fiRequest_cases (f : Face) (s : State) :
    ((s.face f).fi.request.isSome = true ∧ maintenanceReady f s = true ∧
        fiRequest f s = fiEnterMode f .maintenance (s.modFi f fun x => { x with request := none })) ∨
      (((s.face f).fi.request = none ∨ maintenanceReady f s = false) ∧ fiRequest f s = s) := by
  unfold fiRequest
  cases hr : (s.face f).fi.request with
  | none => exact .inr ⟨.inl rfl, by simp⟩
  | some r =>
    cases hm : maintenanceReady f s with
    | false => exact .inr ⟨.inr rfl, by simp⟩
    | true => exact .inl ⟨rfl, rfl, by simp⟩

/-- R141: outside STARTING, present or stored, the census ends nothing. -/
theorem fiCensus_settled {f : Face} {s : State} (h : (s.face f).fi.mode ≠ .starting)
    (h' : ¬((s.face f).fi.mode = .evacuation ∧ (s.face f).fi.stored = some .starting)) : fiCensus f s = s := by
  unfold fiCensus
  dsimp only
  split
  · split
    · next hm => exact absurd hm h
    · next hm hs => exact absurd ⟨hm, hs⟩ h'
    · rfl
  · rfl

/-- R43: a CLOSING berth with every masked bay CLOSED_LOCKED becomes SECURED; every other berth stays. -/
theorem closingTest_cases (f : Face) (s : State) :
    ((s.face f).berth.state = .closing ∧ s.maskLocked f = true ∧
        closingTest f s = berthChange f (fun x => { x with state := .secured }) id s) ∨
      (((s.face f).berth.state ≠ .closing ∨ s.maskLocked f = false) ∧ closingTest f s = s) := by
  unfold closingTest
  by_cases hs : (s.face f).berth.state = .closing
  · cases hm : s.maskLocked f with
    | true => exact .inl ⟨hs, rfl, by rw [if_pos ⟨hs, rfl⟩]⟩
    | false => exact .inr ⟨.inr rfl, by rw [if_neg (by simp)]⟩
  · exact .inr ⟨.inl hs, by rw [if_neg (fun h => hs h.1)]⟩

end Sys2Proof.Machine
end

