-- ==== Sys2Proof/Tests/Slice0.lean ====
section
/-! SUPPORT. Tests: ill-formed commands, the worked checks and cases of the spec, and for each statement a state and
operands that meet its hypotheses. Every expected value is the spec's own, from the chapter that a comment names. -/

namespace Sys2Proof.Tests

open Sys2Proof.Machine

/-! ### Builders -/

/-- The three key characters. -/
def key (a b c : Nat) : Key := ⟨chr a, chr b, chr c⟩

/-- A bay that is closed and locked. -/
def lockedBay (n c w : Nat) : Bay := { newBay n c w with state := .closedLocked, lockConfirmed := true }

/-- Profile 21 with the first five doors of its list (02, Worked example: a fleet profile). -/
def fleet : Profile :=
  { code := 21, cars := 4, q := 1200, refs := 0
    doors := [⟨1, 2950, 1400⟩, ⟨1, 7450, 1400⟩, ⟨1, 11950, 1400⟩, ⟨1, 16450, 1400⟩, ⟨2, 21550, 1400⟩] }

/-- The list of the interleave case (04): bays 9 to 12, markers M1 to M3. -/
def runningList : PollList :=
  ⟨[⟨9, .status⟩, ⟨10, .status⟩, ⟨11, .status⟩, ⟨12, .status⟩, ⟨33, .status⟩, ⟨34, .status⟩, ⟨35, .status⟩], .repeat⟩

/-- Face F1 of the worked cases (01, 04): Lf 210,000, the UP mark of 4 cars at 150,000, bays 9 to 12, in NORMAL with its
line enabled. -/
def faceF1 (x : FaceState) : FaceState :=
  { x with
    config :=
      { x.config with
        lf := some 210000
        marksUp := ⟨#[none, none, none, some 150000, none, none, none, none, none, none], rfl⟩ }
    bays := [lockedBay 9 133000 1900, lockedBay 10 137500 1900, lockedBay 11 142700 2000, lockedBay 12 147200 2000]
    fi := { x.fi with mode := .normal, conditions := ⟨true, true, true, true, true, true⟩, proving := true }
    line := { x.line with enabled := true, running := some runningList } }

/-- The part with face F1 as above, changed by `g`, at a time base value. -/
def station (now : Nat) (g : FaceState → FaceState) : State :=
  { State.reset.modFace .f1 (fun x => g (faceF1 x)) with
    now := BitVec.ofNat 32 now, profiles := [fleet], freePool := 507 }

/-- A train of profile 21 in a berth state. -/
def train (b : BerthState) (x : FaceState) : FaceState :=
  { x with
    berth := { x.berth with state := b, train := some 4107, profile := some 21, dir := some .up, cars := some 4 } }

/-- The snapshot of the worked case (04, Worked case: alignment at face F1). -/
def snapshotF1 : Snapshot := ⟨150038, 38, .full, [9, 10, 11, 12], [1, 2, 3, 4]⟩

/-- A train that stands aligned, in a berth state from ALIGNED on. -/
def stood (b : BerthState) (x : FaceState) : FaceState :=
  { train b x with berth := { (train b x).berth with standstill := true, snapshot := some snapshotF1 } }

/-- The face in a mode. -/
def inMode (m : Mode) (x : FaceState) : FaceState := { x with fi := { x.fi with mode := m } }

/-- Every bay of the face changed alike. -/
def withBays (g : Bay → Bay) (x : FaceState) : FaceState := { x with bays := x.bays.map g }

/-- The line of the face changed. -/
def withLine (g : Line → Line) (x : FaceState) : FaceState := { x with line := g x.line }

/-- A transaction whose response window is open. -/
def polling (c : TxClass) (a : Nat) (x : FaceState) : FaceState :=
  withLine (fun l =>
    { l with
      tx := some
        { cls := c, address := a, function := .status, bays := [], header := [], window := some ⟨0#32, 146⟩
          received := [], inPass := true } }) x

/-- A transaction whose header is being sent. -/
def sending (c : TxClass) (x : FaceState) : FaceState :=
  withLine (fun l => { l with tx := l.tx.map fun t => { t with window := none } }) (polling c 9 x)

/-- A window whose outcome is decided, `n` of its 7 characters having come. -/
def decided (n : Nat) (x : FaceState) : FaceState := withLine (fun l => { l with late := some ⟨⟨0#32, 146⟩, 7, n⟩ }) x

/-- The polled transaction has `n` characters of its response. -/
def received (n : Nat) (x : FaceState) : FaceState :=
  withLine (fun l => { l with tx := l.tx.map fun t => { t with received := List.replicate n 0#8 } }) x

/-- A bay STATUS response with its check: position, lock, motor fault, beams, edge, handles (11). -/
def bayResponse (position lock motor beams edge handles : Nat) : List Byte :=
  withCheck256 [chr position, chr lock, chr motor, chr beams, chr edge, chr handles]

/-- The state after a command. -/
def after (c : Instr) (s : State) : State :=
  match exec c s with
  | .next t => t
  | _ => s

/-- The code and the data of the answer in the buffer. -/
def answerOf (s : State) : Option (AnswerCode × List Byte) := s.port.answer.map fun a => (a.code, a.data)

/-! ### Ill-formed commands -/

theorem test_ill_formed_malformed_frame :
    (Instr.malformedFrame []).wellFormed = false ∧ (Instr.malformedFrame [6#8]).wellFormed = false := by decide
theorem test_ill_formed_overrun_discard :
    (Instr.overrunDiscard []).wellFormed = false ∧ (Instr.overrunDiscard [6#8, 0#8]).wellFormed = false := by decide
theorem test_ill_formed_unadmitted_request :
    (Instr.unadmittedRequest 0#8 1#8 (key 0 0 0) 0#8 []).wellFormed = false ∧
      (Instr.unadmittedRequest 6#8 1#8 (key 0 0 0) 0#8 []).wellFormed = false := by decide
theorem test_ill_formed_data_length :
    (Instr.lookupFace (key 0 0 0) (List.replicate 1025 0#8)).wellFormed = false ∧
      (Instr.setMode 0#8 (key 0 0 0) (List.replicate 1025 0#8)).wellFormed = false ∧
      (Instr.unadmittedRequest 1#8 0#8 (key 0 0 0) 0#8 (List.replicate 1025 0#8)).wellFormed = false := by
  simp only [Instr.wellFormed, dataFits, List.length_replicate]; decide
theorem test_ill_formed_arrive :
    (Instr.arrive .f0 2097152 21 .up 4).wellFormed = false ∧ (Instr.arrive .f0 1 16384 .up 4).wellFormed = false ∧
      (Instr.arrive .f0 1 21 .up 128).wellFormed = false := by decide
theorem test_ill_formed_standstill_position :
    (Instr.standstillYes .f0 (some 2097152)).wellFormed = false ∧
      (Instr.standstillNo .f0 (some 2097152)).wellFormed = false := by decide
theorem test_ill_formed_bay_number :
    (Instr.unlockDeadlineExpiry .f0 0).wellFormed = false ∧ (Instr.openDeadlineExpiry .f0 33).wellFormed = false ∧
      (Instr.closeDeadlineExpiry .f0 33).wellFormed = false ∧
      (Instr.warningDeadlineExpiry .f0 33).wellFormed = false ∧
      (Instr.clearHoldExpiry .f0 33 .gap).wellFormed = false := by decide
theorem test_ill_formed_response :
    (Instr.responseComplete .f0 []).wellFormed = false ∧
      (Instr.responseComplete .f0 (List.replicate 8 0#8)).wellFormed = false ∧
      (Instr.responseCharacterFault .f0 true false).wellFormed = false := by decide
/-- No row of the table gives bits. -/
theorem test_no_table_words : decodeTableWord 8 1 = none := by decide

/-! ### The worked checks of the formats (11) -/

theorem test_lookup_berth_frame :
    judgeExchange true [1#8, 4#8, 1#8, 0#8, 0#8, 0#8, 0#8, 0#8, 250#8] = some (.lookupBerth (key 1 0 0) []) := by decide
theorem test_frame_with_wrong_check :
    judgeExchange true [1#8, 4#8, 1#8, 0#8, 0#8, 0#8, 0#8, 0#8, 249#8] =
      some (.malformedFrame [1#8, 4#8, 1#8, 0#8, 0#8, 0#8, 0#8, 0#8, 249#8]) := by decide
theorem test_bay_status_header : pollHeader 9 .status true = [9#8, 1#8, 1#8, 245#8] := by decide
theorem test_broadcast_close : commandHeader [11, 12] .close = [0#8, 17#8, 0#8, 12#8, 0#8, 0#8, 227#8] := by decide
theorem test_arrive_telegram :
    judgeTelegram .f1 ([165#8, 1#8, 11#8, 32#8, 0#8, 21#8, 0#8, 1#8, 4#8, 21#8].map cleanChar) =
      .arrive .f1 4107 21 .up 4 := by decide
/-- 09, a run of transactions: T_lim 146; R163: 17 and 210 at the ends of the ranges. -/
theorem test_timeouts : timeoutBits 6 20 = 146 ∧ timeoutBits 0 0 = 17 ∧ timeoutBits 6 63 = 210 := by decide

/-! ### The configuration store, profiles, the port (01, 02, 10) -/

/-- 01: with T_coarse at 1,000, T_fine of 1,400 stores 1,000 and is answered CLAMPED with 1,000. -/
theorem test_amend_face_clamps :
    answerOf (after (.amendFace (key 1 0 0) 3#8 (num 1400)) (station 0 id)) = some (.clamped, num 1000) ∧
      ((after (.amendFace (key 1 0 0) 3#8 (num 1400)) (station 0 id)).face .f1).config.tFine = 1000 := by decide
/-- 10, an overrun and a summary, step 1: the warning duration 9,000 is clamped to 8,000. -/
theorem test_amend_warning_duration :
    answerOf (after (.amendFace (key 1 0 0) 11#8 (num 9000)) (station 0 id)) = some (.clamped, num 8000) := by decide
/-- 10, step 2: a second frame before the fetch is discarded, and sets the overrun mark. -/
theorem test_second_request_is_discarded :
    (after (.lookupBerth (key 1 0 0) []) (after (.amendFace (key 1 0 0) 11#8 (num 9000)) (station 0 id))).port.overrun =
      true := by decide
/-- 10, steps 4 and 5: a fetch of 3 of the answer's characters fetches nothing; a whole one empties the buffer. -/
theorem test_fetch :
    (after (.fetch 4) (after (.lookupSummary (key 0 0 0) []) (station 0 id))).port.answer.isSome = true ∧
      (after (.fetch 100) (after (.lookupSummary (key 0 0 0) []) (station 0 id))).port.state = .idle := by decide
/-- 02, R19: enrolling answers the free count after it; 507 less the one door. -/
theorem test_enrol_profile :
    answerOf (after (.enrolProfile (key 22 0 0) (num 2 ++ num 500 ++ [1#8, 1#8] ++ num 3000 ++ num 1400)) (station 0 id)) =
      some (.done, num 506) := by decide
/-- R22: retiring returns the five entries of profile 21. -/
theorem test_retire_profile :
    answerOf (after (.retireProfile (key 21 0 0) []) (station 0 id)) = some (.done, num 512) := by decide

/-! ### Berths and positions (03, 04) -/

/-- 03, a call at face F1: ARRIVE at 812,400. -/
theorem test_arrive :
    ((after (.arrive .f1 4107 21 .up 4) (station 812400 id)).face .f1).berth.state = .announced ∧
      ((after (.arrive .f1 4107 21 .up 4) (station 812400 id)).face .f1).berth.silence = some 817400#32 := by decide

/-- AU holds the three readings of the worked case. -/
def sighted (x : FaceState) : FaceState :=
  { x with
    au :=
      { x.au with
        readings :=
          ⟨some ⟨true, 148820, 815800#32⟩, some ⟨true, 148790, 815900#32⟩, some ⟨true, 148905, 816000#32⟩, none⟩ } }

/-- 04, alignment at face F1: h 150,038, E +38, FULL, mask 9 to 12, doors 1 to 4. -/
theorem test_standstill_aligns :
    ((after (.standstillYes .f1 none) (station 816100 fun x => sighted (train .announced x))).face .f1).berth.snapshot =
      some snapshotF1 := by decide
/-- 04, the cross-check split: the train reports 150,500. -/
theorem test_standstill_splits :
    ((after (.standstillYes .f1 (some 150500)) (station 816100 fun x => sighted (train .announced x))).face .f1).berth.snapshot =
      some ⟨150038, 38, .split, [11, 12], [1, 2]⟩ := by decide
/-- 04, the median, the even count and the rounding. -/
theorem test_fusion_rounds : meanOf (keptOf 100 [149901, 150000, 150150, 150250]) = 149951 := by decide
/-- 03: DEPART in SECURED vacates the berth; in CLOSING it is NOT_SECURED and latches UNSAFE_DEPART. -/
theorem test_depart :
    ((after (.depart .f1) (station 831200 (stood .secured))).face .f1).berth.state = .vacant ∧
      (after (.depart .f1) (station 909500 (stood .closing))).latched .f1 .unsafeDepart = true := by decide
/-- 03: OPEN_REQUEST opens the mask: bay 9 is UNLOCKING, its limit 1,500. -/
theorem test_open_request :
    ((after (.openRequest .f1) (station 816900 (stood .aligned))).bay? .f1 9).map (fun b => (b.state, b.deadline)) =
      some (.unlocking, some ⟨.unlock, some 818400#32, false⟩) := by decide

/-! ### Doors, presence, releases (05, 06, 07) -/

/-- 05, reopens to the limit, 1,044,800: the warning's end gives CLOSING with the deadline 1,049,800. -/
theorem test_warning_expires :
    ((after (.warningDeadlineExpiry .f1 11) (station 1044800 fun x =>
        withBays (fun b => { b with state := .warning, deadline := some ⟨.warning, some 1044800#32, false⟩ })
          (stood .closing x))).bay? .f1 11).map (fun b => (b.state, b.deadline, b.lastCommand)) =
      some (.closing, some ⟨.close, some 1049800#32, false⟩, some .close) := by decide
/-- 05, 1,046,000: an EDGE onset in CLOSING gives REOPENING, count 1, OPEN deadline 1,050,000. -/
theorem test_onset_reopens :
    ((after (.responseComplete .f1 (bayResponse 3 0 0 0 1 0)) (station 1046000 fun x =>
        polling .list 11 (withBays (fun b => { b with state := .closing }) (stood .closing x)))).bay? .f1 11).map
        (fun b => (b.state, b.reopens, b.deadline)) =
      some (.reopening, 1, some ⟨.open, some 1050000#32, false⟩) := by decide
/-- 06, a passenger in the gap, 1,300,000: the record is created SUSPECT with union {2}. -/
theorem test_gap_record :
    (after (.responseComplete .f1 (bayResponse 4 0 0 2 0 0)) (station 1300000 fun x =>
        polling .list 10 (withBays (fun b => { b with state := .warning }) (stood .closing x)))).presence =
      [⟨.f1, 10, .gap, .suspect, 1300000#32, some 2#4, 1300000#32, none, none, false⟩] := by decide
/-- 07, a handle and a train request, 1,600,000: tag 10 under TRACK_HANDLE F1/10, the bay RELEASED with HOLD. -/
theorem test_track_handle :
    (after (.responseComplete .f1 (bayResponse 2 0 0 0 0 2)) { station 1600000 (fun x =>
        polling .list 10 (withBays (fun b => { b with state := .open, lockConfirmed := false }) (stood .openService x))) with
          nextTag := 10 }).releases = [⟨10, .trackHandle .f1 10, true, 1600000#32, none⟩] := by decide
/-- 07, 1,600,500: EMERGENCY_RELEASE brings the open bays to RELEASED. -/
theorem test_emergency_release :
    ((after (.emergencyReleaseOn .f1) (station 1600500 fun x =>
        withBays (fun b => { b with state := .open, lastCommand := some .open }) (stood .openService x))).bay? .f1 9).map
        (fun b => (b.state, b.lastCommand)) = some (.released, some .open) := by decide

/-! ### Modes and the line (08, 09) -/

/-- 08, requests, the key and an evacuation, 4,000,000: DONE, PENDING, deadline 4,030,000. -/
theorem test_set_mode_pends :
    answerOf (after (.setMode 0#8 (key 1 0 0) [4#8]) (station 4000000 (stood .secured))) = some (.done, [1#8]) ∧
      ((after (.setMode 0#8 (key 1 0 0) [4#8]) (station 4000000 (stood .secured))).face .f1).fi.request =
        some ⟨4000000#32, 4030000#32⟩ := by decide
/-- 08, 4,008,000: the key to ON takes NORMAL to MANUAL. -/
theorem test_key_to_manual :
    ((after (.pkeyChange .f1 true) (station 4008000 (stood .secured))).face .f1).fi.mode = .manual := by decide
/-- 08, 4,012,000: EVAC puts the face in EVACUATION with MANUAL stored and its loop open. -/
theorem test_evac :
    ((after .evacAsserted (station 4012000 (inMode .manual))).face .f1).fi.stored = some .manual ∧
      (after .evacAsserted (station 4012000 (inMode .manual))).prove .f1 = false := by decide
/-- 09, a node lost and recovered: transactions 5, 6, 12 and 20. -/
theorem test_link_health :
    (Node.after ⟨18, .marginal, 0, none, none⟩ false).errors = 21 ∧
      (Node.after ⟨21, .marginal, 0, none, none⟩ false).link = .lost ∧
      Node.after ⟨24, .lost, 5, none, none⟩ false = ⟨27, .lost, 0, none, none⟩ ∧
      Node.after ⟨27, .lost, 7, none, none⟩ true = ⟨0, .linked, 0, none, none⟩ := by decide
/-- 09, a run of transactions, 44: the end of bay 9's header opens a window of 146. -/
theorem test_header_opens_window :
    ((after (.headerEnd .f1) (station 0 fun x => withLine (fun l =>
        { l with tx := l.tx.map fun t => { t with window := none } }) (polling .list 9 x))).face .f1).line.tx.map
        Transaction.window = some (some ⟨0#32, 146⟩) := by decide
/-- R199: the three characters of an OPEN_REQUEST, one a millisecond, leave it in the queue; 165 inside makes the telegram
corrupt. -/
theorem test_telegram_collected :
    let first := tick (station 0 fun x => { x with tlrx := [165#8, 3#8, 88#8].map cleanChar })
    let last := tick (tick first)
    ((first.face .f1).link.receiving.isSome = true ∧ (first.face .f1).tlrx.length = 2) ∧
      last.pending = [.openRequest .f1] ∧ (last.face .f1).link.receiving = none ∧
      (tick { first with faces := { first.faces with f1 := { first.faces.f1 with tlrx := [cleanChar 165#8] } } }).pending =
        [.corruptTelegram .f1 .newOpening] := by decide
/-- R30, R200: a restart in the second character of an answer cuts it there. -/
theorem test_answer_cut :
    ((after (.restartFace 0#8 (key 1 0 0) []) (station 0 fun x =>
        { x with link := ⟨none, [plain 3#8 .accepted]⟩, tltx := ⟨192, none⟩ })).face .f1).tltx =
      ⟨192, some [166#8, 3#8]⟩ := by decide
/-- R184: a restart lets the header that is being sent end, and abandons its transaction there; then comes the preamble. On a
disabled line the character in progress of a response ends the transaction and is no stray. -/
theorem test_restart_abandons_at_the_end :
    let restart := fun g => after (.restartFace 0#8 (key 1 0 0) []) (station 0 g)
    let sent := restart (sending .list)
    let heard := restart fun x =>
      { withLine (fun l => { l with enabled := false }) (polling .list 9 x) with blrx := [⟨4#8, false, true⟩] }
    let ended := ((after (.headerEnd .f1) sent).face .f1).line
    ((sent.face .f1).line.tx.isSome = true ∧ (sent.face .f1).line.signal = .none) ∧
      (ended.tx = none ∧ ended.signal = .preamble) ∧
      ((heard.face .f1).line.tx.isSome = true ∧ ((tick heard).face .f1).line.tx = none ∧
        ((tick heard).face .f1).blrx = [] ∧ (tick heard).pending = []) := by decide
/-- R162: the seventh of a window's characters is faulted, and closes it; a faulted second one leaves it open. -/
theorem test_faulted_characters :
    (let s := after (.responseCharacterFault .f1 false false) (station 0 fun x => received 6 (polling .list 9 x));
      (s.face .f1).line.late = none ∧ ((s.face .f1).line.tx.map Transaction.address) = some 10) ∧
      ((after (.responseCharacterFault .f1 false false) (station 0 fun x => received 1 (polling .list 9 x))).face
        .f1).line.late = some ⟨⟨0#32, 146⟩, 7, 2⟩ := by decide
/-- R197: the field stored mode has MAINTENANCE as 3, the field mode as 4. -/
theorem test_stored_mode_codes :
    (interlockData { faceF1 (State.reset.face .f1) with
      fi := { State.reset.faces.f1.fi with mode := .maintenance, stored := some .maintenance } }).take 3 =
      [4#8, 1#8, 3#8] := by decide
/-- 09, 139: after bay 9's success the two CLOSE entries go out under one broadcast header. -/
theorem test_commands_come_first :
    ((after (.responseComplete .f1 (bayResponse 2 0 0 0 0 0)) (station 0 fun x => withLine (fun l =>
        { l with queue := [⟨11, .close⟩, ⟨12, .close⟩] }) (polling .list 9 (stood .closing x)))).face .f1).line.tx.map
        Transaction.header = some [0#8, 17#8, 0#8, 12#8, 0#8, 0#8, 227#8] := by decide

/-! ### For each statement, states and operands that meet its hypotheses -/

theorem witness_IdleMillisecond :
    (let s := station 0 fun x => withLine (fun l => { l with abandoning := true }) (polling .list 9 x);
      s.pending = [] ∧ s.powered = true ∧ (s.face .f1).line.abandoning = true ∧ (s.face .f1).blrx = []) ∧
    State.reset.pending = [] ∧ State.reset.powered = true ∧
      ({ State.reset with powered := false } : State).pending = [] ∧
      ({ State.reset with powered := false } : State).powered = false := by decide

/-- R201: at the 20th sample the key's change comes into the queue, at the 19th it does not. -/
theorem witness_InputsChangeAtTheTwentiethSample :
    let s := fun n => station 0 fun x => { x with pkey := ⟨true, false, n⟩ }
    ((s 19).powered = true ∧ (s 19).pending = [] ∧ (s 18).powered = true ∧ (s 18).pending = []) ∧
      (tick (s 19)).pending = [.pkeyChange .f1 true] ∧ (tick (s 18)).pending = [] := by decide

/-- R201: a run grows by one sample and ends at a sample at the level taken; a button let go for 20 samples is taken so. -/
theorem test_samples_are_counted :
    let s := fun p => tick (station 0 fun x => { x with pkey := p, popen := p })
    ((s ⟨true, false, 18⟩).face .f1).pkey = ⟨true, false, 19⟩ ∧ ((s ⟨true, true, 7⟩).face .f1).pkey = ⟨true, true, 0⟩ ∧
      ((s ⟨false, true, 19⟩).face .f1).popen = ⟨false, false, 0⟩ ∧ (s ⟨false, true, 19⟩).pending = [.pkeyChange .f1 false] := by
  decide

/-- A deadline of the next millisecond comes into the queue, a later one does not. -/
theorem witness_DueTimersComeIntoTheQueue :
    let s := fun n => station 99 fun x => { x with berth := { x.berth with silence := some (BitVec.ofNat 32 n) } }
    ((s 100).powered = true ∧ (s 100).pending = []) ∧ (tick (s 100)).pending = [.silenceDeadlineExpiry .f1] ∧
      (tick (s 101)).pending = [] := by decide

theorem witness_SupplyLossOpensTheLoops :
    ({ State.reset with powered := false } : State).powered = false ∧
      ∀ pins, Instr.openRequest .f1 ≠ .powerOnReset pins := ⟨rfl, fun _ h => nomatch h⟩

/-- Pins with EVAC deasserted and with EVAC asserted; with it the reset state holds the STATION_EVAC record. -/
def evacPins (e : Bool) : PinLevels :=
  { evac := e, pkey := .all false, popen := .all false, pclose := .all false }

theorem witness_PowerOnResetClearsEverything :
    (evacPins false).evac = false ∧ (evacPins true).evac = true ∧
      (after (.powerOnReset (evacPins true)) State.reset).releases.length = 1 ∧
      ((∀ pins, Instr.openRequest .f1 ≠ .powerOnReset pins) ∧ Instr.openRequest .f1 ≠ .supplyLoss) :=
  ⟨rfl, rfl, by decide, fun _ h => (nomatch h), fun h => (nomatch h)⟩

/-- Faces that a restart finds with a character in progress: a header being sent, a character in a window; and without. -/
theorem witness_waits_to_abandon :
    let heard : FaceState := { polling .list 9 (faceF1 (State.reset.face .f1)) with blrx := [⟨4#8, false, true⟩] }
    (heard.waitsToAbandon ∧ heard.line.enabled = true ∧ heard.line.signal = .none) ∧
      (sending .pass heard).waitsToAbandon ∧
      (let quiet := polling .list 9 (faceF1 (State.reset.face .f1));
        ¬quiet.waitsToAbandon ∧ ∃ t, quiet.line.tx = some t ∧ t.cls ≠ .command ∧ t.address = 9) ∧
      ¬(faceF1 (State.reset.face .f1)).waitsToAbandon :=
  ⟨⟨⟨_, rfl, .inr (by decide)⟩, rfl, rfl⟩, ⟨_, rfl, .inl rfl⟩,
    ⟨fun ⟨_, h, k⟩ => by cases h; exact k.elim (fun h => nomatch h) (fun h => h rfl), _, rfl, by decide, rfl⟩,
    fun ⟨_, h, _⟩ => nomatch h⟩

/-- A full release list: every platform handle of face F0. -/
def fullReleases : List Release :=
  (List.range 32).map fun n => ⟨n + 1, .platformHandle .f0 (n + 1), true, 0#32, none⟩

theorem witness_RestartFaceRestartsOneFace :
    (let s := station 0 (polling .marker 36);
      s.takesRequests ∧ faceOf (key 1 0 0).k1 = some .f1 ∧ s.evac.taken = false ∧ (s.face .f1).line.addressed ∧
        (s.face .f1).line.tx.isSome = true) ∧
    (let s := after (.powerOnReset (evacPins true)) State.reset;
      (s.takesRequests ∧ (s.face .f3).line.addressed ∧ faceOf (key 3 0 0).k1 = some .f3 ∧ s.evac.taken = true ∧
          (s.releaseOf .stationEvac).isSome = true) ∧
        (let bare : State := { s with releases := [] };
          bare.takesRequests ∧ bare.evac.taken = true ∧ bare.releaseOf .stationEvac = none ∧ bare.releases.length < 32) ∧
        let full : State := { s with releases := fullReleases };
        full.takesRequests ∧ full.evac.taken = true ∧ full.releaseOf .stationEvac = none ∧
          32 ≤ (full.releases.filter fun r => r.key.face? != some .f3).length ∧
          ((after (.restartFace 0#8 (key 3 0 0) []) full).face .f3).releaseOverflow = true) := by
  unfold State.takesRequests Line.addressed; decide

theorem witness_RestartPartRestartsEveryFace :
    (let s := station 0 (polling .marker 36);
      s.takesRequests ∧ s.evac.taken = false ∧ (∀ f, (s.face f).line.addressed) ∧ (s.face .f1).line.tx.isSome = true) ∧
      let s := after (.powerOnReset (evacPins true)) State.reset
      s.takesRequests ∧ s.evac.taken = true ∧ ∀ f, (s.face f).line.addressed :=
  ⟨⟨by unfold State.takesRequests; decide, rfl,
      fun f => by unfold Line.addressed; cases f <;> simp +decide, rfl⟩,
    by unfold State.takesRequests; decide, by decide,
    fun f => by unfold Line.addressed; cases f <;> simp +decide⟩

theorem witness_EachRequestReceivesOneAnswer :
    State.reset.takesRequests ∧ requestOf (.depart .f0) = none ∧
      requestOf (.lookupFace (key 1 0 0) []) = some ⟨1#8, 1#8, key 1 0 0, 0#8, []⟩ ∧
      requestOf (.unadmittedRequest 5#8 0#8 (key 0 0 0) 18#8 []) = some ⟨5#8, 0#8, key 0 0 0, 18#8, []⟩ ∧
      admitted 5#8 0#8 18#8 = false ∧
      (requestOf (.restartPart 0#8 (key 0 0 0) []) = some ⟨5#8, 0#8, key 0 0 0, 17#8, []⟩ ∧
        requestOf (.restartFace 0#8 (key 3 0 0) []) = some ⟨5#8, 0#8, key 3 0 0, 16#8, []⟩ ∧
        faceOf (key 3 0 0).k1 = some .f3) := by
  unfold State.takesRequests; decide

/-- A part whose answer waits: 12 characters with its data. -/
def waiting : State := after (.lookupSummary (key 0 0 0) []) State.reset

theorem witness_BusyPortDiscardsRequests :
    waiting.powered = true ∧ waiting.port.state ≠ .idle ∧
      requestOf (.lookupFace (key 1 0 0) []) = some ⟨1#8, 1#8, key 1 0 0, 0#8, []⟩ ∧
      charAt [1#8] 1 ≠ 6#8 ∧ malformed [7#8] = true := by decide

theorem witness_FetchTakesAWholeAnswer :
    (∃ a, waiting.powered = true ∧ waiting.port.state = .answerReady ∧ waiting.port.answer = some a ∧
        1 + (a.frame waiting.port.overrun).length ≤ 1 + (a.frame waiting.port.overrun).length ∧
        1 ≤ (a.frame waiting.port.overrun).length ∧
        (a.frame waiting.port.overrun).length < 1 + (a.frame waiting.port.overrun).length) ∧
      (State.reset.powered = true ∧ State.reset.port.state ≠ .answerReady ∧ State.reset.started.frame = none) ∧
      (waiting.port.begun = none ∧ waiting.started.frame.isSome = true) ∧
      let busy : State := { waiting with port := { waiting.port with begun := some (exchangeStart State.reset) } }
      busy.port.begun = some (exchangeStart State.reset) ∧ busy.started.frame = none :=
  ⟨⟨_, rfl, rfl, rfl, by decide⟩, by decide⟩

/-- R196: SVCS falls for a FETCH before the answer is placed: the FETCH returns answer present no, and the answer waits. -/
theorem test_fall_before_placement :
    let rising := (State.reset.svcsFalls.clocks (portBits 6#8)).svcsRises
    let placed := after (.lookupSummary (key 0 0 0) []) { State.reset.svcsFalls with pending := [] }
    let fetched := after (.fetch 1) { (placed.clocks (portBits 6#8)).svcsRises with pending := [] }
    rising.pending = [.fetch 1] ∧ placed.port.state = .answerReady ∧ fetched.port.svdo = [5#8] ∧
      fetched.port.state = .answerReady ∧ (after (.fetch 1) fetched).port.svdo = [133#8] := by decide

/-- What a FETCH that falls behind waiting commands begins with: the status, and the answer's kind, class and overrun item. -/
def begunBehind (cs : List Instr) : Option (Byte × Option (List Byte × Byte)) :=
  ({ waiting with pending := cs } : State).svcsFalls.port.exchange.map fun e =>
    (e.start.status, e.start.frame.map fun frame => (frame.take 2, charAt frame 7))

/-- R189, R190: what was clocked before is taken before an exchange begins: a FETCH behind a whole FETCH and a request finds
the request's answer, and one behind a request frame that an answer turned away shows and carries the overrun mark. -/
theorem test_queue_is_taken_before_an_exchange :
    begunBehind [.fetch 100, .lookupBerth (key 1 0 0) []] = some (133#8, some ([1#8, 4#8], 0#8)) ∧
      begunBehind [.overrunDiscard [1#8, 4#8, 1#8, 0#8, 0#8, 0#8, 0#8, 0#8, 250#8]] =
        some (165#8, some ([1#8, 9#8], 1#8)) := by decide

/-- 11, Worked check: LOOKUP BERTH F1 as bits, most significant first, and three bits of no whole character. -/
theorem test_exchange_as_bits :
    wholeChars ((([1#8, 4#8, 1#8, 0#8, 0#8, 0#8, 0#8, 0#8, 250#8] : List Byte).map portBits).flatten ++
        [true, true, false]) = [1#8, 4#8, 1#8, 0#8, 0#8, 0#8, 0#8, 0#8, 250#8] ∧
      (State.reset.svcsFalls.clocks (portBits 6#8 ++ [true, true, false])).svcsRises.pending = [.fetch 1] ∧
      portBits 250#8 = [true, true, true, true, true, false, true, false] := by decide

/-- R186: SVDO presents the status character, most significant bit first, and then all ones. -/
theorem test_svdo_bits :
    ((List.range 10).map fun n => (State.reset.svcsFalls.clocks (List.replicate n false)).svdo) =
      [none, some false, some false, some false, some false, some false, some true, some false, some true,
        some true] := by decide

theorem witness_PortAnswersBadFrames :
    State.reset.takesRequests ∧ malformed [1#8] = true ∧ malformed [0#8, 4#8, 1#8, 0#8, 0#8] = true ∧
      admitted 1#8 0#8 0#8 = false ∧ admitted 5#8 7#8 0#8 = false ∧
      (admitted 4#8 7#8 0#8 = false ∧ faceOf 4#8 = none) := by
  unfold State.takesRequests; decide

theorem witness_RequestFramesSpellTheirCommands :
    requestOf (.lookupSummary (key 0 0 0) (List.replicate 1024 0#8)) =
        some ⟨1#8, 9#8, key 0 0 0, 0#8, List.replicate 1024 0#8⟩ ∧
      (List.replicate 1024 0#8).length ≤ 1024 ∧
      (State.reset.powered = true ∧ State.reset.port.exchange = none ∧ [true, false, true].length < 8 ∧
        [1#8] ≠ ([] : List Byte)) ∧
      ((portBits 6#8 ++ [true]).length = 8 * 1 + 0 + 1 ∧
        (wholeChars (portBits 6#8 ++ [true])).head? = some 6#8) ∧
      (let s : State := { waiting with pending := [.fetch 100, .fetch 1] };
        s.pending = .fetch 100 :: [.fetch 1] ∧ (∃ t, step s = .next t) ∧ s.caughtUp.powered = true ∧
          s.caughtUp.port.exchange = none ∧ s.caughtUp.port.state = .idle) :=
  ⟨rfl, by rw [List.length_replicate], by decide, by decide, rfl, ⟨_, rfl⟩, by decide⟩

/-- Telegrams with every field at the top of its groups; a character with a parity error; a sum of 1. -/
theorem witness_TelegramsSpellTheirCommands :
    ((telegramOf (.arrive .f1 2097151 16383 .down 127)).isSome = true ∧
        commandFace (.arrive .f1 2097151 16383 .down 127) = some .f1 ∧
        (Instr.arrive .f1 2097151 16383 .down 127).wellFormed = true) ∧
      (∃ c ∈ [TrainChar.mk 165#8 true true, ⟨3#8, false, true⟩], c.parityOk = false ∨ c.stopBit = false) ∧
      charSum ([TrainChar.mk 1#8 true true].map TrainChar.value) % 128 ≠ 0 ∧
      (telegramOf (.depart .f1) = some [165#8, 6#8, 85#8] ∧
        ([165#8, 6#8, 85#8] : List Byte).map cleanChar = [] ++ cleanChar 165#8 :: [cleanChar 6#8, cleanChar 85#8] ∧
        ([165#8, 6#8, 85#8] : List Byte).map cleanChar = [cleanChar 165#8, cleanChar 6#8] ++ cleanChar 85#8 :: []) ∧
      (let s := station 0 fun x => { x with link := ⟨none, [plain 7#8 .accepted]⟩, tltx := ⟨120, none⟩ };
        s.powered = true ∧ (s.face .f1).tltx.cut = none ∧ (s.face .f1).link.answers = [plain 7#8 .accepted] ∧
          (plain 7#8 .accepted)[1]? = some 7#8 ∧ (trainCharBits 7#8)[1]? = some true ∧
          (s.face .f1).tltx.elapsed / 10 = 11 * 1 + 1) := by decide

/-- R32, R199: values with no meaning: 128 and more, and 0 and 3 in the on/off field of an EMERGENCY_RELEASE. -/
theorem witness_meaningless_values :
    (meaningless [165#8, 5#8, 128#8, 0#8] ∧ meaningless [165#8, 5#8, 0#8, 86#8] ∧ meaningless [165#8, 5#8, 3#8, 83#8]) ∧
      [[165#8, 5#8, 128#8, 86#8], [165#8, 5#8, 0#8, 86#8], [165#8, 5#8, 3#8, 83#8]].map
          (fun cs : List Byte => judgeTelegram .f1 (cs.map cleanChar)) = List.replicate 3 (.corruptTelegram .f1 .judged) :=
  ⟨⟨.inl (by decide), .inr ⟨5#8, 4, 2, 0#8, by decide, rfl, rfl, rfl, by decide⟩,
    .inr ⟨5#8, 4, 2, 3#8, by decide, rfl, rfl, rfl, by decide⟩⟩, by decide⟩

/-- A part with a presence record and a release record on face F1. -/
def crowded : State :=
  { station 1000 id with
    presence := [⟨.f1, 10, .gap, .clearing, 0#32, some 2#4, 0#32, some 400#32, some ⟨1000#32, false⟩, false⟩]
    releases := [⟨10, .supervisor .f1, false, 0#32, some 900#32⟩], nextTag := 11 }

theorem witness_LookupsChangeNothing :
    crowded.takesRequests ∧ faceOf (key 1 10 0).k1 = some .f1 ∧ (crowded.bay? .f1 10).isSome = true ∧
      crowded.bay? .f1 1 = none ∧ (zoneOf (key 1 10 0).k3 = some .gap ∧ (crowded.presenceAt .f1 10 .gap).isSome = true) ∧
      zoneOf (key 1 10 2).k3 = none ∧ (zoneOf 1#8 = some .edge ∧ crowded.presenceAt .f1 10 .edge = none) ∧
      (crowded.profile? 21).isSome = true ∧ crowded.profile? 22 = none ∧ (crowded.releaseTagged 10).isSome = true ∧
      crowded.releaseTagged 11 = none ∧ (1 ≤ (key 1 36 0).k2.toNat ∧ (key 1 36 0).k2.toNat ≤ 36) ∧
      36 < (key 1 37 0).k2.toNat := by
  unfold State.takesRequests; decide

theorem witness_LookupsClearWhatTheyTell :
    crowded.takesRequests ∧ faceOf (key 1 0 0).k1 = some .f1 ∧ (key 1 0 0).k2.toNat = 0 := by
  unfold State.takesRequests; decide

theorem witness_BadKeysAndBadCodingsAreRefused :
    State.reset.takesRequests ∧
      (requestOf (.retireBerth (key 4 0 0) []) = some ⟨4#8, 4#8, key 4 0 0, 0#8, []⟩ ∧
        faceKey (.retireBerth (key 4 0 0) []) = some (key 4 0 0) ∧ faceOf (key 4 0 0).k1 = none) ∧
      (faceKey (.retireBerth (key 3 0 0) [0#8]) = some (key 3 0 0) ∧ (faceOf (key 3 0 0).k1).isSome = true ∧
        coded (.retireBerth (key 3 0 0) [0#8]) = false) := by
  unfold State.takesRequests; decide

/-- T_fine at and just outside 50 to 1,000; the reopen limit with no bay counting and with one. -/
theorem witness_AmendFaceClampsSettings :
    (station 0 id).takesRequests ∧ faceOf (key 1 0 0).k1 = some .f1 ∧ settingOf 3 = some .tFine ∧
      [49, 50, 1000, 1001].map (fun v => readNum (num v)) = [some 49, some 50, some 1000, some 1001] ∧
      (∀ x ∈ ((station 0 id).face .f1).bays, x.reopens = 0) ∧
      ∃ x ∈ ((station 0 (withBays fun b => { b with reopens := 1 })).face .f1).bays, 0 < x.reopens := by
  unfold State.takesRequests; decide

/-- A length at 20,000, one below it, the bays' own limit and one below; a mark at Lf and one beyond; the rate code with
the line off and on. -/
theorem witness_AmendFaceRefusesOtherFields :
    let s := station 0 (inMode .maintenance)
    let bare := station 0 fun x => { inMode .maintenance x with bays := [], config := .powerOn }
    (s.takesRequests ∧ faceOf (key 1 0 0).k1 = some .f1 ∧ bare.takesRequests) ∧
      ((station 0 id).face .f1).fi.mode ≠ .maintenance ∧
      ((bare.face .f1).fi.mode = .maintenance ∧ (bare.face .f1).bays = [] ∧ (bare.face .f1).config.marks = []) ∧
      (readOptionalNum [0#8] = some none ∧ (s.face .f1).bays ≠ []) ∧
      (readOptionalNum (1#8 :: num 148199) = some (some 148199) ∧
        ∃ b ∈ (s.face .f1).bays, 2 * 148199 < 2 * b.centre + b.width) ∧
      (readOptionalNum (1#8 :: num 150000) = some (some 150000) ∧
        (∀ b ∈ (s.face .f1).bays, 2 * b.centre + b.width ≤ 2 * 150000) ∧
        (∀ m ∈ (s.face .f1).config.marks, m ≤ 150000)) ∧
      (readOptionalNum (1#8 :: num 19999) = some (some 19999) ∧ readOptionalNum (1#8 :: num 250001) = some (some 250001)) ∧
      ((64#8 : Byte).toNat = 1 + 63 ∧ (89#8 : Byte).toNat = 10 + 79) ∧
      (bare.face .f1).config.lf = none ∧ (s.face .f1).config.lf = some 210000 ∧
      ((s.face .f1).line.enabled = true ∧ (State.reset.face .f1).line.enabled = false ∧
        (State.reset.face .f1).line.stopping = false ∧ (State.reset.face .f1).line.signal = .none) ∧
      [rateOf 3, rateOf 4] = [some .r115200, none] ∧ readEnum [4#8] = some 4 := by
  unfold State.takesRequests; decide

/-- Bay 13 at the end of the face: its opening ends at Lf, and one millimetre beyond; a number in use, and an overlap. -/
theorem witness_EnrolBayPlacesANewBay :
    let s := station 0 fun x => withLine (fun l => { l with enabled := false }) (inMode .maintenance x)
    (s.takesRequests ∧ faceOf (key 1 13 0).k1 = some .f1 ∧ (s.face .f1).fi.mode = .maintenance ∧
        (s.face .f1).line.enabled = false ∧ (s.face .f1).config.lf = some 210000) ∧
      readTwoNums (num 209000 ++ num 2000) = some (209000, 2000) ∧ onTheFace 210000 13 209000 2000 ∧
      (∀ y ∈ (s.face .f1).bays, y.num ≠ 13) ∧ clearOf 13 209000 2000 (s.face .f1).bays ∧
      ¬onTheFace 210000 13 209001 2000 ∧ ¬onTheFace 210000 33 209000 2000 ∧
      (∃ y ∈ (s.face .f1).bays, y.num = 12) ∧ ¬clearOf 13 149000 2000 (s.face .f1).bays ∧
      ((station 0 id).face .f1).fi.mode ≠ .maintenance ∧
      ((station 0 (inMode .maintenance)).face .f1).line.enabled = true ∧
      (State.reset.face .f1).config.lf = none := by
  unfold State.takesRequests onTheFace clearOf; decide

theorem witness_BaysAreAmendedAndRetired :
    let s := station 0 fun x => withLine (fun l => { l with enabled := false }) (inMode .maintenance x)
    (s.takesRequests ∧ faceOf (key 1 12 0).k1 = some .f1 ∧ (s.face .f1).fi.mode = .maintenance ∧
        (s.face .f1).line.enabled = false ∧ (s.face .f1).config.lf = some 210000) ∧
      readNum (num 2001) = some 2001 ∧ s.bay? .f1 1 = none ∧ (s.bay? .f1 12).isSome = true ∧
      onTheFace 210000 12 147200 600 ∧ ¬onTheFace 210000 12 147200 599 ∧
      clearOf 12 147200 600 ((s.face .f1).bays.filter fun y => y.num != 12) ∧
      ¬clearOf 12 144000 2000 ((s.face .f1).bays.filter fun y => y.num != 12) ∧
      (s.presence = [] ∧ s.releases = []) ∧
      (∃ r ∈ crowded.presence, r.face = .f1 ∧ r.bay = 10) := by
  unfold State.takesRequests onTheFace clearOf; decide

/-- Lists of no entry, of one good one, and with a second entry that does not ascend. -/
theorem witness_EnrolProfileTakesFromThePool :
    (station 0 id).takesRequests ∧
      readProfile (num 2 ++ num 500 ++ [1#8, 1#8] ++ num 3000 ++ num 1400) = some (2, 500, [⟨1, 3000, 1400⟩]) ∧
      validDoors 2 [⟨1, 3000, 1400⟩] ∧ firstBadDoor 2 [] 0 ∧ firstBadDoor 2 [⟨3, 3000, 1400⟩] 1 ∧
      firstBadDoor 2 [⟨1, 3000, 1400⟩, ⟨1, 3000, 1400⟩] 2 ∧
      (¬(1 ≤ (key 0 0 0).k1.toNat) ∧ ((station 0 id).profile? 21).isSome = true ∧
        (station 0 id).profile? 22 = none ∧ (station 0 id).profiles.length < 16 ∧ 1 ≤ (station 0 id).freePool ∧
        ({ station 0 id with freePool := 0 } : State).freePool < 1) :=
  ⟨by unfold State.takesRequests; decide, rfl, by unfold validDoors; decide, by unfold firstBadDoor validDoors; decide,
    by unfold firstBadDoor validDoors; decide, by unfold firstBadDoor validDoors; decide, by decide⟩

theorem witness_AmendProfileChangesOneField :
    ((station 0 id).takesRequests ∧ (station 0 id).profile? 22 = none ∧ (station 0 id).profile? 21 = some fleet ∧
        fleet.refs = 0) ∧
      ({ station 0 id with profiles := [{ fleet with refs := 1 }] } : State).profile? 21 =
        some { fleet with refs := 1 } ∧
      [readNum (num 10), readNum (num 11), readNum (num 250001), readNum [0#8]] =
        [some 10, some 11, some 250001, none] ∧
      ((∃ d ∈ fleet.doors, 1 < d.car) ∧ ∀ d ∈ fleet.doors, d.car ≤ 2) ∧
      readDoorList ([1#8, 1#8] ++ num 3000 ++ num 1400) = some [⟨1, 3000, 1400⟩] ∧ validDoors 4 [⟨1, 3000, 1400⟩] ∧
      firstBadDoor 4 [] 0 ∧ 1 ≤ (station 0 id).freePool + fleet.doors.length ∧
      (0 : Nat) + ({ fleet with doors := [] } : Profile).doors.length < 1 :=
  ⟨by unfold State.takesRequests; decide, by decide, by decide, by decide, by decide, by unfold validDoors; decide,
    by unfold firstBadDoor validDoors; decide, by decide, by decide⟩

theorem witness_RetireProfileReturnsItsEntries :
    (station 0 id).takesRequests ∧ (station 0 id).profile? 22 = none ∧ (station 0 id).profile? 21 = some fleet ∧
      fleet.refs = 0 ∧ 0 < ({ fleet with refs := 4 } : Profile).refs := by
  unfold State.takesRequests; decide

theorem witness_ArriveAnnouncesATrain :
    (station 0 id).takesTelegrams .f1 ∧ ((station 0 id).face .f1).fi.mode = .normal ∧
      ((station 0 (inMode .manual)).face .f1).fi.mode = .manual ∧ ((station 0 id).face .f1).berth.state = .vacant ∧
      (((station 0 id).face .f1).config.mark? .up 4).isSome = true ∧
      ∃ p, (station 0 id).profile? 21 = some p ∧ p.cars = 4 :=
  ⟨by unfold State.takesTelegrams; decide, rfl, rfl, rfl, rfl, _, rfl, rfl⟩

/-- Three answers wait, so that a telegram is still taken; and four, so that it is dropped. -/
def queued (n : Nat) (x : FaceState) : FaceState :=
  { x with link := { x.link with answers := List.replicate n (plain 7#8 .accepted) } }

theorem witness_TelegramsTurnedAwayChangeNothing :
    ((station 0 (queued 3)).takesTelegrams .f1 ∧
        ((station 0 (queued 3)).face .f1).config.mark? .down 4 = none ∧
        (station 0 (queued 3)).profile? 22 = none) ∧
      ((station 0 (queued 4)).powered = true ∧ 4 ≤ ((station 0 (queued 4)).face .f1).link.answers.length ∧
        commandFace (.depart .f1) = some .f1 ∧ (telegramOf (.depart .f1)).isSome = true) ∧
      ((station 0 (stood .closing)).takesTelegrams .f1 ∧ ((station 0 (stood .closing)).face .f1).berth.state = .closing) := by
  unfold State.takesTelegrams; decide

/-- A fusion that finds a head position where the train aligns, one where it repositions, and one that finds none. -/
theorem witness_StandstillYesAlignsTheTrain :
    let s := station 816100 fun x => sighted (train .announced x)
    let far := station 816100 fun x =>
      sighted { train .announced x with config := { (train .announced x).config with minPassage := 1500 } }
    (s.takesTelegrams .f1 ∧ (s.face .f1).berth.state = .announced ∧ (fuse s .f1).head = some 150038) ∧
      ((s.face .f1).bays.Pairwise (fun a b => a.num < b.num) ∧ s.berthProfile .f1 = some fleet ∧
        (s.face .f1).berth.dir = some .up ∧ (s.face .f1).berth.cars = some 4 ∧
        (s.face .f1).config.mark? .up 4 = some 150000) ∧
      (computeAlignment s .f1 150038 = some (.aligned snapshotF1) ∧
        computeAlignment far .f1 150038 = some (.reposition .noMatch 38)) ∧
      (fuse (station 0 (train .announced)) .f1).head = none ∧
      ((station 0 (train .standing)).takesTelegrams .f1 ∧
        ((station 0 (train .standing)).face .f1).berth.state = .standing) := by
  unfold State.takesTelegrams; decide

theorem witness_StandstillNoReturnsOrFreezes :
    ∀ b ∈ [BerthState.standing, .aligned, .reposition, .openService, .closing, .secured],
      (station 0 (stood b)).takesTelegrams .f1 ∧ ((station 0 (stood b)).face .f1).berth.state = b ∧
        ((station 0 (stood b)).face .f1).berth.moved = false := by
  unfold State.takesTelegrams; decide

theorem witness_OpenRequestOpensTheMask :
    ∀ b ∈ [BerthState.openService, .aligned, .closing, .secured],
      (station 0 (stood b)).takesTelegrams .f1 ∧ ((station 0 (stood b)).face .f1).fi.mode = .normal ∧
        ((station 0 (stood b)).face .f1).berth.standstill = true ∧
        ((station 0 (stood b)).face .f1).berth.moved = false ∧ ((station 0 (stood b)).face .f1).berth.state = b := by
  unfold State.takesTelegrams; decide

theorem witness_CloseRequestClosesTheMask :
    let s := station 0 fun x => withBays (fun b => { b with state := .open }) (stood .openService x)
    s.takesTelegrams .f1 ∧ (s.face .f1).fi.mode ≠ .manual ∧ (s.face .f1).fi.mode ≠ .evacuation ∧
      (s.face .f1).berth.state = .openService ∧ (s.face .f1).fi.settled := by
  unfold State.takesTelegrams Interlock.settled; decide

theorem witness_DepartAndRetireBerthVacate :
    ((station 0 (stood .secured)).takesTelegrams .f1 ∧ ((station 0 (stood .secured)).face .f1).berth.state = .secured) ∧
      (faceOf (key 1 0 0).k1 = some .f1 ∧ (station 0 id).takesRequests ∧
        ((station 0 id).face .f1).berth.state = .vacant) ∧
      ((station 0 (stood .aligned)).takesRequests ∧ ((station 0 (stood .aligned)).face .f1).berth.state ≠ .vacant ∧
        ∀ x ∈ ((station 0 (stood .aligned)).face .f1).bays, x.secure = true) ∧
      ∃ x ∈ ((station 0 (withBays fun b => { b with state := .open })).face .f1).bays, x.secure = false := by
  unfold State.takesTelegrams State.takesRequests; decide

/-- Deadlines that are due at this millisecond, and that are due at the next; a partial telegram just in time and just too
old; an answer being sent, and one cut; characters waiting. -/
theorem witness_LinkAndBerthTimersAct :
    let s := station 500 fun x => { train .standing x with
      berth := { (train .standing x).berth with positionWait := some 500#32, silence := some 501#32 } }
    s.powered = true ∧ (s.face .f1).berth.silence = some 501#32 ∧ s.reached 501#32 = false ∧
      (s.face .f1).berth.positionWait = some 500#32 ∧ s.reached 500#32 = true ∧
      (s.face .f1).berth.state = .standing ∧ (State.reset.face .f1).berth.silence = none ∧
      (State.reset.face .f1).berth.positionWait = none ∧
      (s.age 450#32 = 50 ∧ s.age 449#32 = 51) ∧
      (let w := station 0 fun x =>
          { x with link := ⟨some ⟨[cleanChar 165#8], 0#32⟩, [plain 7#8 .accepted]⟩, tlrx := [cleanChar 7#8] };
        w.powered = true ∧ w.pending = [] ∧ (w.face .f1).tltx.cut = none ∧
          ((w.face .f1).link.answers = [plain 7#8 .accepted] ∧ (w.face .f1).tlrx = [cleanChar 7#8]) ∧
          (w.face .f1).link.receiving = some ⟨[cleanChar 165#8], 0#32⟩ ∧
          ([cleanChar 165#8] ++ [cleanChar 7#8])[1]? = some (cleanChar 7#8)) ∧
      (station 0 fun x => { x with tltx := ⟨0, some [166#8]⟩ }).faces.f1.tltx.cut = some [166#8] := by decide

/-- No estimate; one, fewer than N_min of 2; three. -/
theorem witness_FusionAgreesWithTheMedian :
    let seen := fun n => station 816100 fun x => { sighted (train .announced x) with
      au := { x.au with readings := ⟨some ⟨true, 148820, 815800#32⟩, if n = 1 then none else some ⟨true, 148790, 815900#32⟩,
                                     none, none⟩ } }
    estimates (station 816100 id) .f1 = [] ∧ estimates (seen 1) .f1 = [150020] ∧
      estimates (seen 2) .f1 = [150020, 149990] ∧ ((seen 1).face .f1).config.nMin = 2 ∧
      (keptOf 100 (estimates (seen 2) .f1)).length = 2 := by decide

/-- A bay of face F1 whose report is awaited. -/
def reportingF1 (b : Nat) (g : FaceState → FaceState) : State := station 1000 fun x => polling .list b (g x)

/-- A report of a bay of face F1 that is awaited. -/
theorem reporting_f1 (b : Nat) (g : FaceState → FaceState) (chars : List Byte) (h1 : 1 ≤ b) (h2 : b ≤ 32)
    (h3 : chars.length = 7) (h4 : charSum chars % 256 = 0)
    (h5 : ((((reportingF1 b g).face .f1).line.node b).after true).link ≠ .lost)
    (h6 : ((reportingF1 b g).face .f1).line.abandoning = false) :
    (reportingF1 b g).reporting .f1 b chars :=
  ⟨rfl, h1, h2, h3, h4, h5, h6, _, ⟨0#32, 146⟩, rfl, rfl, rfl, rfl, rfl⟩

/-- The face with every bay in a state. -/
def bayIn (st : BayState) (x : FaceState) : FaceState := withBays (fun b => { b with state := st }) x

theorem witness_ReportsSetThePresenceRecords :
    (PresenceListKept (reportingF1 10 id) ∧ (reportingF1 10 id).reporting .f1 10 (bayResponse 0 1 0 1 1 0) ∧
        ((reportingF1 10 id).bay? .f1 10).isSome = true) ∧
      ((reportingF1 10 id).presenceAt .f1 10 .gap = none ∧ (reportingF1 10 id).presence.length < 48) ∧
      (readBayResponse ((bayResponse 0 1 0 1 1 0).take 6)).beams = 1#4 ∧
      (readBayResponse ((bayResponse 0 1 0 1 1 0).take 6)).edge = true ∧
      (crowded.presenceAt .f1 10 .gap).map Presence.state = some .clearing ∧
      (readBayResponse ((bayResponse 0 1 0 0 0 0).take 6)).beams = 0#4 ∧
      (∀ st ∈ [BayState.warning, .closing],
        ((reportingF1 10 (bayIn st)).bay? .f1 10).map (fun x => (x.state, x.overflow, x.restorePending)) =
            some (st, false, false) ∧
          (reportingF1 10 (bayIn st)).presenceAt .f1 10 .gap = none) ∧
      (let s : State := { reportingF1 10 (stood .closing) with
          presence := [⟨.f1, 10, .gap, .occupied, BitVec.ofNat 32 (1000 - 15001), some 2#4, 0#32, none, none, false⟩] };
        (s.presenceAt .f1 10 .gap).map Presence.state = some .occupied ∧ (s.face .f1).config.entrapment < 15001) :=
  ⟨⟨by unfold PresenceListKept; decide, reporting_f1 10 id _ (by decide) (by decide) (by decide) (by decide) (by decide) rfl,
    by decide⟩, by decide⟩

theorem witness_ClearHoldExpiryRetires :
    crowded.powered = true ∧
      (∃ r, crowded.presenceAt .f1 10 .gap = some r ∧ r.state = .clearing ∧ r.clearHold = some ⟨1000#32, false⟩ ∧
        crowded.reached 1000#32 = true ∧ ∀ q ∈ crowded.presence, q.face = .f1 → q.bay = 10 → q.isAt .f1 10 .gap = true) ∧
      crowded.reached 1001#32 = false ∧ crowded.presenceAt .f1 10 .edge = none ∧
      ∀ st ∈ [BayState.warning, .reopening],
        ((crowded.modFace .f1 (bayIn st)).bay? .f1 10).map (fun x => (x.state, x.overflow, x.deadline)) =
          some (st, false, none) :=
  ⟨rfl, ⟨_, rfl, rfl, rfl, by decide, by decide⟩, by decide, by decide, by decide⟩

theorem witness_ReportsSetTheHandleReleases :
    (ReleaseListKept (reportingF1 10 id) ∧ (reportingF1 10 id).reporting .f1 10 (bayResponse 0 1 0 0 0 3) ∧
        ((reportingF1 10 id).bay? .f1 10).isSome = true) ∧
      (readBayResponse ((bayResponse 0 1 0 0 0 3).take 6)).platformHandle = true ∧
      (readBayResponse ((bayResponse 0 1 0 0 0 3).take 6)).trackHandle = true ∧
      (readBayResponse ((bayResponse 0 1 0 0 0 0).take 6)).trackHandle = false ∧
      (reportingF1 10 id).releaseOf (.platformHandle .f1 10) = none ∧
      (reportingF1 10 id).activeRelease (.trackHandle .f1 10) = false ∧
      (((reportingF1 10 id).face .f1).berth.state = .vacant ∧ (reportingF1 10 id).coverage .f1 10 = .none ∧
        ((reportingF1 10 id).bay? .f1 10).map (fun x => (x.state, x.restorePending)) = some (.closedLocked, false) ∧
        (let t := after (.responseComplete .f1 (bayResponse 0 1 0 0 0 3)) (reportingF1 10 id);
          t.coverage .f1 10 = .holding ∧
            (t.bay? .f1 10).map (fun x => (x.state, x.lastCommand)) = some (.released, some .hold)) ∧
        ((reportingF1 10 (bayIn .faulted)).bay? .f1 10).map (fun x => (x.state, x.restorePending)) =
          some (.faulted, false)) :=
  ⟨⟨by unfold ReleaseListKept; decide, reporting_f1 10 id _ (by decide) (by decide) (by decide) (by decide) (by decide) rfl,
    by decide⟩, by decide⟩

theorem witness_FaceReleasesCoverTheFace :
    ReleaseListKept (station 0 (stood .openService)) ∧ ReleaseListKept crowded ∧
      ((station 0 (stood .openService)).takesTelegrams .f1 ∧
        ((station 0 (stood .openService)).face .f1).berth.state ≠ .vacant) ∧
      (crowded.takesRequests ∧ faceOf (key 1 0 0).k1 = some .f1) ∧
      [readEnum [0#8], readEnum [1#8], readEnum [2#8]] = [some 0, some 1, some 2] ∧
      ((crowded.releaseOf (.supervisor .f1)).isSome = true ∧ (station 0 id).releaseOf (.supervisor .f1) = none) ∧
      (let full : State := { crowded with releases := fullReleases };
        full.takesRequests ∧ full.releaseOf (.supervisor .f1) = none ∧ 32 ≤ full.releases.length ∧
          answerOf (after (.faceRelease 0#8 (key 1 0 0) [0#8]) full) = some (.noSpace, [])) := by
  unfold ReleaseListKept State.takesTelegrams State.takesRequests; decide

/-- A face-scope release at a SECURED berth of a settled face: the berth is CLOSING and condition 4 is false. -/
theorem witness_face_release_of_a_secured_berth :
    let s := station 1000 (stood .secured)
    let t := after (.faceRelease 0#8 (key 1 0 0) [0#8]) s
    ReleaseListKept s ∧ SecuredKept s ∧ s.takesRequests ∧ (s.face .f1).fi.settled ∧
      (s.face .f1).berth.state = .secured ∧ (t.face .f1).berth.state = .closing ∧ t.maskLocked .f1 = false ∧
      t.releaseStanding .f1 ≠ s.releaseStanding .f1 ∧ (t.face .f1).fi.conditions.noRelease = false :=
  ⟨by unfold ReleaseListKept; decide, fun f => by cases f <;> decide, by unfold State.takesRequests; decide,
    by unfold Interlock.settled; decide, by decide⟩

/-- The full list is one that the steps keep. -/
theorem witness_full_list_is_kept : ReleaseListKept { crowded with releases := fullReleases } := by
  unfold ReleaseListKept; decide

theorem witness_ResetsEndReleases :
    (crowded.takesRequests ∧ ReleaseListKept crowded ∧ crowded.releaseTagged 9 = none ∧
        (crowded.releaseTagged 10).map Release.active = some false) ∧
      faceOf (key 1 0 0).k1 = some .f1 ∧
      ((crowded.face .f1).releaseOverflow = false ∧
        ((station 0 fun x => { x with releaseOverflow := true }).face .f1).releaseOverflow = true ∧
        ((station 0 fun x => { x with releaseOverflow := true }).face .f1).bays.all
          (fun x => !x.platformHandle && !x.trackHandle) = true ∧
        (station 0 id).releases.length < 32 ∧ (station 0 id).evac.taken = false) ∧
      (let s : State := { crowded.modFace .f1 (bayIn .released) with
          releases := crowded.releases ++ [⟨11, .trackHandle .f1 10, true, 0#32, none⟩] };
        let t := after (.resetRelease 0#8 (key 10 0 0) []) s;
        (s.bay? .f1 10).map Bay.state = some .released ∧ (s.coverage .f1 10, t.coverage .f1 10) = (.opening, .holding) ∧
          (s.coverage .f1 9, t.coverage .f1 9) = (.opening, .none)) := by
  unfold ReleaseListKept State.takesRequests; decide

/-- A list of one entry that is valid, and one whose address is 37; a list that covers the face and one that does not. -/
theorem witness_PollListsAreLoadedAndStaged :
    let s := station 0 (withLine fun l => { l with enabled := false })
    (s.takesRequests ∧ faceOf (key 1 36 0).k1 = some .f1 ∧ (s.face .f1).line.enabled = false) ∧
      readPollList [1#8, 36#8, 1#8, 1#8] = some ([(36, 1)], 1) ∧
      (validPollList [(36, 1)] 1).isSome = true ∧ validPollList [(37, 0)] 0 = none ∧
      (s.covers .f1 runningList = true ∧ s.covers .f1 ⟨[⟨36, .ident⟩], .chain⟩ = false) ∧
      (readEnum [1#8]).bind disciplineOf = some .chain ∧ (s.face .f1).line.running = some runningList ∧
      (State.reset.face .f1).line.running = none ∧ (State.reset.face .f1).line.staged = none ∧
      (key 1 36 0).k2.toNat = 36 ∧ pollFunctionOf 1 = some .ident ∧ (s.face .f1).line.passSlot = .empty := by
  unfold State.takesRequests; decide

theorem witness_WithdrawAnswersByTheSlot :
    State.reset.takesRequests ∧ faceOf (key 4 0 0).k1 = none ∧ faceOf (key 3 0 0).k1 = some .f3 := by
  unfold State.takesRequests; decide

theorem witness_FreezeAndUnfreezeAFace :
    (station 0 id).takesRequests ∧ faceOf (key 1 0 0).k1 = some .f1 ∧ ((station 0 id).face .f1).line.frozen = false ∧
      ((station 0 FaceState.frozenNow).face .f1).line.frozen = true := by
  unfold State.takesRequests; decide

/-- R174, R179: UNFREEZE queues bay 10's CLOSE again behind the HOLD that waits for bay 9. -/
theorem test_unfreeze_queues_behind :
    let s := station 0 fun x =>
      FaceState.frozenNow (withLine (fun l => { l with queue := [⟨10, .close⟩, ⟨9, .hold⟩] }) (withBays (fun b =>
        if b.num = 10 then { b with state := .closing, lastCommand := some .close } else b) x))
    ((after (.unfreeze 0#8 (key 1 0 0) []) s).face .f1).line.queue = [⟨9, .hold⟩, ⟨10, .close⟩] := by decide

theorem witness_LinesAreEnabledAndDisabled :
    let off := station 0 (withLine fun l => { l with enabled := false })
    (station 0 id).takesRequests ∧ faceOf (key 1 0 0).k1 = some .f1 ∧ ((station 0 id).face .f1).line.enabled = true ∧
      ((off.face .f1).line.enabled = false ∧ (off.face .f1).line.running = some runningList ∧
        off.covers .f1 runningList = true ∧ (off.face .f1).line.staged = none) ∧
      (State.reset.face .f1).line.running = none := by
  unfold State.takesRequests; decide

/-- A header being sent for a response, a command's header, no transaction, and an open window. -/
theorem witness_HeadersOpenTheirWindows :
    (6 ≤ 6 ∧ 63 ≤ 63) ∧
      (∃ t, ((station 0 (sending .list)).face .f1).line.tx = some t ∧ t.window = none ∧ t.cls ≠ .command) ∧
      (∃ t, ((station 0 (sending .command)).face .f1).line.tx = some t ∧ t.window = none ∧ t.cls = .command) ∧
      ((station 0 id).face .f1).line.tx = none ∧
      (∃ t, ((station 0 (polling .list 9)).face .f1).line.tx = some t ∧ t.window ≠ none) ∧
      ∃ u, exec (.amendFace (key 1 0 0) 19#8 (num 63)) (station 0 (polling .list 9)) = .next u :=
  ⟨by decide, ⟨_, rfl, rfl, by decide⟩, ⟨_, rfl, rfl, rfl⟩, rfl, ⟨_, rfl, by decide⟩, _, rfl⟩

theorem witness_StraysAndSignals :
    (((station 0 id).face .f1).line.tx = none ∧ ((station 0 id).face .f1).line.late = none ∧
        ((station 0 id).face .f1).line.signal = .none) ∧
      ((station 0 (sending .pass)).face .f1).line.tx ≠ none ∧
      (((station 0 FaceState.frozenNow).face .f1).line.signal = .none ∧
        ((station 0 FaceState.frozenNow).face .f1).line.breakPending = true) ∧
      ((station 0 (withLine fun l => { l with signal := .break })).face .f1).line.signal = .break ∧
      (((station 0 (withLine fun l => { l with signal := .preamble, enabled := false })).face .f1).line.signal = .preamble ∧
        ((station 0 (withLine fun l => { l with signal := .preamble, enabled := false })).face .f1).line.enabled =
          false) := by decide

theorem witness_TransactionsEndWithOneOutcome :
    (∃ t w, ((station 0 (polling .marker 36)).face .f1).line.tx = some t ∧ t.window = some w ∧ t.cls ≠ .command ∧
        1 ≤ t.address ∧ t.address ≤ 36) ∧
      (charSum (withCheck256 [1#8, 0#8, 0#8, 0#8]) % 256 = 0 ∧ (withCheck256 [1#8, 0#8, 0#8, 0#8]).length = 5) ∧
      charSum [1#8, 0#8, 0#8, 0#8, 0#8] % 256 ≠ 0 ∧
      (((station 0 id).face .f1).line.tx = none ∧ ((station 0 id).face .f1).line.late = none) ∧
      (∀ n ∈ [5, 6], ((station 0 (decided n)).face .f1).line.tx = none ∧
        ((station 0 (decided n)).face .f1).line.late = some ⟨⟨0#32, 146⟩, 7, n⟩) ∧
      (∀ n ∈ [5, 6], ((station 0 fun x => received n (polling .list 9 x)).face .f1).line.tx.map
        (fun t => t.received.length) = some n) ∧
      (let s := station 0 fun x => { polling .list 9 x with blrx := [⟨4#8, false, true⟩] };
        s.powered = true ∧ s.pending = [] ∧ (s.face .f1).blrx = [⟨4#8, false, true⟩] ∧
          ((tick s).face .f1).line.tx.map Transaction.received = some [4#8]) ∧
      ∃ t, ((station 0 (sending .list)).face .f1).line.tx = some t ∧ t.window = none :=
  ⟨⟨_, _, rfl, rfl, by decide, by decide, by decide⟩, by decide, by decide, by decide, by decide, by decide, by decide,
    _, rfl, rfl⟩

/-- A transaction that a restart abandons: its header being sent, and its window open with a character waiting. -/
theorem witness_abandoned_transactions :
    let left := withLine fun l => { l with abandoning := true, passSlot := .ended ⟨9, .status⟩ .abandoned [] }
    let sent := station 0 fun x => left (sending .pass x)
    let heard := station 0 fun x => { left (polling .pass 9 x) with blrx := [⟨4#8, false, true⟩] }
    ((∃ t, (sent.face .f1).line.tx = some t ∧ t.window = none) ∧ (sent.face .f1).blrx = []) ∧
      (∃ t, (heard.face .f1).line.tx = some t ∧ t.window ≠ none) ∧
      (∀ s ∈ [sent, heard], s.powered = true ∧ s.pending = [] ∧ (s.face .f1).line.abandoning = true ∧
        (s.face .f1).line.addressed ∧ (s.face .f1).blrx.length ≤ 1 ∧ ∀ r, (s.face .f1).line.passSlot ≠ .inFlight r) :=
  ⟨⟨⟨_, rfl, rfl⟩, rfl⟩, ⟨_, rfl, by decide⟩, fun s h => by
    rcases List.mem_cons.mp h with rfl | h
    · exact ⟨rfl, rfl, rfl, fun _ h _ => by cases h; decide, by decide, fun _ h => nomatch h⟩
    · cases List.mem_singleton.mp h
      exact ⟨rfl, rfl, rfl, fun _ h _ => by cases h; decide, by decide, fun _ h => nomatch h⟩⟩

/-- The ends of transactions that clauses of the statement above speak of: a bay and a marker that lose their link, and
a marker named on the list with the next one asked for. -/
theorem witness_transaction_ends :
    let weak := fun a => withLine fun l => l.setNode a { l.node a with errors := 21, link := .marginal }
    (∀ a ∈ [9, 33], ((station 0 fun x => weak a (polling .list a x)).face .f1).line.tx.isSome = true ∧
        (((station 0 fun x => weak a (polling .list a x)).face .f1).line.node a).losesLink
          { cls := .list, address := a, function := .status, bays := [], header := [], window := some ⟨0#32, 146⟩
            received := [], inPass := true } .timeout = true) ∧
      ((station 0 (polling .marker 33)).face .f1).line.namesMarker .m1 = true ∧
      ((after (.transactionTimeout .f1) (station 0 (polling .marker 33))).face .f1).au.nextMarker = .m2 ∧
      ((station 0 id).face .f1).line.namesMarker .m4 = false := by decide

/-- The last entry of the running list, marker M3, on a face in STARTING. -/
def atListEnd : State :=
  station 1000 fun x => withLine (fun l => { l with position := 7 }) (inMode .starting (polling .list 35 x))

theorem witness_ReadingsAreFusedAndTheCensusEnds :
    (∃ t w, (atListEnd.face .f1).line.tx = some t ∧ t.window = some w ∧ t.function = .status ∧ t.address = 35 ∧
        t.polled = true ∧ t.cls = .list ∧ t.inPass = true) ∧
      atListEnd.powered = true ∧ markerAt? 35 = some .m3 ∧
      (((atListEnd.face .f1).line.node 35).after true).link ≠ .lost ∧
      (charSum (withCheck256 [0#8, 0#8, 0#8, 0#8]) % 256 = 0 ∧ (withCheck256 [0#8, 0#8, 0#8, 0#8]).length = 5) ∧
      (atListEnd.face .f1).line.running = some runningList ∧
      runningList.entries.length ≤ (atListEnd.face .f1).line.position ∧
      (atListEnd.face .f1).fi.mode = .starting ∧ (atListEnd.face .f1).fi.request = none :=
  ⟨⟨_, _, rfl, rfl, rfl, rfl, rfl, rfl, rfl⟩, by decide⟩

/-- R141, R142: the census ends with a pass whose last transaction fails, with one whose last entry is an IDENT, where the
last node that it waited for enters LOST, where its bay is isolated, and where its bay reports with the pass seen. -/
theorem test_census_ends :
    let ends := fun c (s : State) => (((after c s).face .f1).fi.mode, (after c s).latched .f1 .modeDone)
    let seen := fun g => station 1000 fun x : FaceState =>
      let y := inMode .starting (g x)
      { y with fi := { y.fi with censusPass := true }
               bays := y.bays.map fun b => if b.num = 9 then { b with state := .unknown } else b }
    let weak := fun l : Line => l.setNode 9 ⟨21, .marginal, 0, none, none⟩
    ends (.transactionTimeout .f1) atListEnd = (.normal, true) ∧
      ends (.responseCharacterFault .f1 true true) atListEnd = (.normal, true) ∧
      ends (.responseComplete .f1 (withCheck256 [1#8, 2#8, 3#8, 4#8])) (atListEnd.modFace .f1 fun x =>
        withLine (fun l => { l with tx := l.tx.map fun t => { t with function := .ident } }) x) = (.normal, true) ∧
      ends (.transactionTimeout .f1) (seen fun x => withLine weak (polling .list 9 x)) = (.normal, true) ∧
      ends (.isolateBay 0#8 (key 1 9 0) []) (seen id) = (.normal, true) ∧
      ends (.responseComplete .f1 (bayResponse 0 1 0 0 0 0)) (seen fun x => polling .list 9 x) = (.normal, true) ∧
      ((seen id).face .f1).fi.mode = .starting := by decide

/-- The state after marker M3 has seen the train at a position, the two other markers as in the worked case. -/
def seenAt (p : Nat) (g : FaceState → FaceState) : State :=
  after (.responseComplete .f1 (withCheck256 [1#8, chr p, chr (p / 256), chr (p / 65536)]))
    (station 816000 fun x => g (polling .list 35 (sighted x)))

/-- 04, R62, R71: the fusion of the worked case finds a STANDING train and aligns it; it finds stood trains that have not
moved, and moved by 101 from the h_used of another snapshot. -/
theorem witness_fusion_taken :
    let elsewhere := fun b x => { stood b x with
      berth := { (stood b x).berth with snapshot := some { snapshotF1 with hUsed := 149937 } } }
    ((seenAt 148905 (train .standing)).face .f1).au.fusion.head = some 150038 ∧
      ((seenAt 148905 (train .standing)).face .f1).berth.state = .aligned ∧
      ((seenAt 148905 (stood .aligned)).face .f1).berth.state = .aligned ∧
      ((seenAt 148905 (elsewhere .aligned)).face .f1).berth.state = .announced ∧
      ((seenAt 148905 (elsewhere .closing)).face .f1).line.frozen = true ∧
      ((seenAt 148905 (elsewhere .secured)).face .f1).berth.state = .vacant := by decide

/-- The census of a face in EVACUATION whose stored mode is STARTING: every bay surveyed, and none. -/
theorem witness_census_in_evacuation :
    let s := fun st => station 1000 fun x => withLine (fun l => { l with position := 7 })
      { polling .list 35 (bayIn st x) with fi := { x.fi with mode := .evacuation, stored := some .starting } }
    let t := fun st => after (.responseComplete .f1 (withCheck256 [0#8, 0#8, 0#8, 0#8])) (s st)
    ((s .open).face .f1).fi.request = none ∧ ((t .open).face .f1).fi.stored = some .normal ∧
      ((t .unknown).face .f1).fi.stored = some .starting ∧ ((t .unknown).face .f1).fi.censusPass = true := by decide

theorem witness_LinkHealthIsKept :
    (Node.powerOn.link ≠ .lost ∧ (Node.mk 24 .lost 6 none none).link = .lost ∧ (Node.mk 24 .lost 6 none none).run < 7 ∧
        7 ≤ (Node.mk 24 .lost 7 none none).run) ∧
      LinkHealthKept State.reset ∧ ∃ t, step State.reset = .next t :=
  ⟨by decide, fun f n hn => by
    have h : ∀ n ∈ (State.reset.face f).line.nodes.toList, n = Node.powerOn := by cases f <;> decide
    rw [h n hn]
    exact ⟨by decide, by decide, rfl⟩, _, rfl⟩

/-- The end of a preamble with nothing owed: a command waits; none waits and LIST is raised; no class is raised. -/
theorem witness_TheArbiterServesTheFirstRaisedClass :
    let s := station 0 (withLine fun l => { l with signal := .preamble })
    let bare := station 0 (withLine fun l => { l with signal := .preamble, running := none })
    let asked := station 0 (withLine fun l => { l with signal := .preamble, queue := [⟨9, .hold⟩] })
    (s.powered = true ∧ (s.face .f1).line.signal = .preamble ∧ (s.face .f1).line.enabled = true ∧
        (s.face .f1).line.tx = none ∧ (s.face .f1).line.breakPending = false ∧ (s.face .f1).line.breakOwed = false ∧
        (s.face .f1).line.preambleDue = false ∧ (s.face .f1).line.queue = []) ∧
      (arbiterOrder (s.face .f1) = [.marker] ++ .list :: [.pass] ∧ raised s .f1 .marker = false ∧
        raised s .f1 .list = true) ∧
      (∀ c ∈ arbiterOrder (bare.face .f1), raised bare .f1 c = false) ∧
      (∃ q ∈ (asked.face .f1).line.queue, (asked.face .f1).line.frozen = false ∨ q.command = .hold) ∧
      (let t := station 0 (sending .command);
        ((t.face .f1).line.tx.map fun x => (x.cls, x.window)) = some (.command, none)) ∧
      (let late := station 0 (decided 6);
        (late.face .f1).line.tx = none ∧ (late.face .f1).line.late = some ⟨⟨0#32, 146⟩, 7, 6⟩) := by decide

/-- R162, R175: the line becomes free at the end of a command header, at a timeout and at the close of a window decided
earlier, and the first entry of the list goes out each time (09, R173: from the list position). -/
theorem test_line_served_at_each_place :
    ([after (.headerEnd .f1) (station 0 fun x => sending .command x), after (.transactionTimeout .f1) (station 0 (decided 6)),
        after (.transactionTimeout .f1) (station 0 (polling .pass 9))].map fun s =>
      (s.face .f1).line.tx.map fun t => (t.cls, t.address)) = List.replicate 3 (some (.list, 9)) := by decide

theorem witness_SetModeIsTakenOrWaits :
    (station 0 id).takesRequests ∧ faceOf (key 1 0 0).k1 = some .f1 ∧
      [readEnum [0#8], readEnum [1#8], readEnum [2#8], readEnum [3#8], readEnum [4#8]] =
        [some 0, some 1, some 2, some 3, some 4] ∧
      (((station 0 id).face .f1).berth.state = .vacant ∧
        ∀ x ∈ ((station 0 id).face .f1).bays, x.secure = true) ∧
      ((station 0 (stood .secured)).face .f1).berth.state ≠ .vacant ∧
      (let s := station 500 fun x => { x with fi := { x.fi with request := some ⟨0#32, 500#32⟩ } };
        (s.face .f1).fi.request = some ⟨0#32, 500#32⟩ ∧ s.reached 500#32 = true ∧ s.reached 501#32 = false) := by
  unfold State.takesRequests; decide

theorem witness_KeyAndEvacMoveTheModes :
    (true ≠ ((station 0 id).face .f1).fi.keyOn ∧ false = ((station 0 id).face .f1).fi.keyOn ∧
        ((station 0 id).face .f1).fi.mode = .normal) ∧
      (ReleaseListKept (station 0 id) ∧ ReleaseListKept (after .evacAsserted (station 0 id))) ∧
      ((station 0 id).powered = true ∧ (station 0 id).evac.taken = false ∧
        (station 0 id).releaseOf .stationEvac = none ∧ ((station 0 id).face .f1).fi.mode ≠ .evacuation) ∧
      ((after .evacAsserted (station 0 id)).evac.taken = true ∧
        ((after .evacAsserted (station 0 id)).face .f1).fi.stored = some .normal) := by
  unfold ReleaseListKept; decide

theorem witness_PanelButtonsActInManual :
    ((station 0 id).face .f1).fi.mode ≠ .manual ∧
      ∀ b ∈ [BerthState.openService, .aligned, .closing, .secured],
        ((station 0 fun x => inMode .manual (stood b x)).face .f1).fi.mode = .manual ∧
          ((station 0 fun x => inMode .manual (stood b x)).face .f1).berth.standstill = true ∧
          ((station 0 fun x => inMode .manual (stood b x)).face .f1).berth.moved = false ∧
          ((station 0 fun x => inMode .manual (stood b x)).face .f1).berth.state = b := by decide

theorem witness_BayOrdersMoveOneBay :
    let s := fun st => station 0 fun x => inMode .maintenance (withBays (fun b => { b with state := st }) x)
    ((station 0 id).takesRequests ∧ faceOf (key 1 9 0).k1 = some .f1 ∧ (station 0 id).bay? .f1 32 = none ∧
        ((station 0 id).face .f1).fi.mode ≠ .maintenance) ∧
      ∀ st ∈ [BayState.unknown, .released, .closedLocked, .open],
        (s st).takesRequests ∧ ((s st).face .f1).fi.mode = .maintenance ∧
          ((s st).bay? .f1 9).map (fun x => (x.state, x.isolated)) = some (st, false) := by
  unfold State.takesRequests; decide

theorem witness_DeadlinesMoveTheBay :
    ∀ k ∈ [DeadlineKind.unlock, .open, .close, .warning],
      let s := station 500 (withBays fun b => { b with deadline := some ⟨k, some 500#32, false⟩ })
      s.powered = true ∧ (s.bay? .f1 9).map Bay.deadline = some (some ⟨k, some 500#32, false⟩) ∧
        s.reached 500#32 = true ∧ s.reached 501#32 = false := by decide

theorem witness_ReportsMoveTheDoors :
    (let g := withBays fun b => { b with state := .closing };
      (reportingF1 11 g).reporting .f1 11 (bayResponse 0 1 0 0 0 0) ∧
        ((reportingF1 11 g).bay? .f1 11).map (fun x => (x.state, x.restorePending, x.platformHandle, x.trackHandle)) =
          some (.closing, false, false, false) ∧
        (reportingF1 11 g).presenceStanding .f1 11 = false ∧
        ¬((reportingF1 11 fun x => inMode .starting (g x)).face .f1).fi.settled ∧
        (reportingF1 11 fun x => inMode .starting (g x)).presenceStanding .f1 11 = false) ∧
    (let g := withBays fun b => { b with state := .unknown };
      (reportingF1 11 g).reporting .f1 11 (bayResponse 0 1 0 0 0 0) ∧
        ((reportingF1 11 g).bay? .f1 11).map Bay.state = some .unknown ∧ (reportingF1 11 g).coverage .f1 11 = .none ∧
        (reportingF1 11 g).inService .f1 11 = false) ∧
    (readBayResponse ((bayResponse 0 1 0 0 0 0).take 6)).report.closedLocked = true ∧
    (let g := withBays fun b => { b with state := .faulted, restorePending := true };
      (reportingF1 11 g).reporting .f1 11 (bayResponse 0 1 0 0 0 0) ∧
        ((reportingF1 11 g).bay? .f1 11).map (fun x => (x.state, x.restorePending)) = some (.faulted, true)) ∧
    (let g := fun x : FaceState => { bayIn .unknown x with releaseOverflow := true };
      (reportingF1 11 g).reporting .f1 11 (bayResponse 0 1 0 0 0 0) ∧ (reportingF1 11 g).coverage .f1 11 = .opening) :=
  ⟨⟨reporting_f1 11 _ _ (by decide) (by decide) (by decide) (by decide) (by decide) rfl, by decide, by decide,
      by unfold Interlock.settled; decide⟩,
    ⟨reporting_f1 11 _ _ (by decide) (by decide) (by decide) (by decide) (by decide) rfl, by decide⟩, by decide,
    ⟨reporting_f1 11 _ _ (by decide) (by decide) (by decide) (by decide) (by decide) rfl, by decide⟩,
    reporting_f1 11 _ _ (by decide) (by decide) (by decide) (by decide) (by decide) rfl, by decide⟩

/-- R43: the report that finds the last masked bay CLOSED_LOCKED secures the berth; the state before it is one that the steps
keep. -/
theorem test_report_secures_the_berth :
    let s := reportingF1 11 fun x =>
      let y := stood .closing x
      { y with bays := y.bays.map fun b => if b.num = 11 then { b with state := .closing } else b }
    let t := after (.responseComplete .f1 (bayResponse 0 1 0 0 0 0)) s
    SecuredKept s ∧ (s.face .f1).berth.state = .closing ∧ t.maskLocked .f1 = true ∧
      (t.face .f1).berth.state = .secured ∧ t.latched .f1 .berthChange = true :=
  ⟨fun f => by cases f <;> decide, by decide⟩

/-- R86, R87: a bay that was sent HOLD stays in REOPENING at a FULLY_OPEN report; one that was sent OPEN goes on. -/
theorem test_reopening_with_hold_stays :
    let s := fun d => reportingF1 11 (withBays fun b => { b with state := .reopening, reopens := 3, deadline := d })
    let t := fun d => after (.responseComplete .f1 (bayResponse 2 0 0 0 0 0)) (s d)
    ((t none).bay? .f1 11).map Bay.state = some .reopening ∧
      ((t (some ⟨.open, some 5000#32, false⟩)).bay? .f1 11).map Bay.state = some .heldOpen := by decide

/-- Every invariant holds at reset, and the reset part steps. -/
theorem witness_StepsKeepTheTables :
    (∃ t, step State.reset = .next t) ∧ DoorPoolKept State.reset ∧ ReferencesKept State.reset ∧
      PresenceListKept State.reset ∧ ReleaseListKept State.reset :=
  ⟨⟨_, rfl⟩, by unfold DoorPoolKept; decide,
    ⟨by decide, by decide, fun f => by cases f <;> exact ⟨fun _ => rfl, fun _ h => nomatch h⟩⟩,
    by unfold PresenceListKept; decide, by unfold ReleaseListKept; decide⟩

theorem witness_StepsKeepConfigurationAndPorts :
    (∃ t, step (station 0 id) = .next t) ∧ BaysKept (station 0 id) ∧ SettingsKept State.reset ∧ CoverKept (station 0 id) ∧
      PortKept (station 0 id) ∧ AnswersKept (station 0 (queued 4)) ∧
      (let s := station 0 (withBays fun b => { b with state := .heldOpen, reopens := 3 });
        BaysKept s ∧ ReopensKept s ∧ (s.face .f1).config.reopenLimit = 3) ∧
      (let s := station 0 (polling .marker 36);
        LinesKept s ∧ (s.face .f1).line.tx.isSome = true ∧ ∃ t, step s = .next t) :=
  ⟨⟨_, rfl⟩, fun f => by unfold FaceState.baysKept; cases f <;> exact ⟨by decide, by simp +decide⟩,
    fun f => by unfold FaceConfig.kept; cases f <;> exact ⟨by simp +decide, by decide⟩,
    fun f => by cases f <;> decide, ⟨rfl, .inl ⟨rfl, rfl⟩⟩, fun f => by cases f <;> decide,
    ⟨fun f => by unfold FaceState.baysKept; cases f <;> exact ⟨by decide, by simp +decide⟩,
      fun f => by cases f <;> decide, rfl⟩,
    fun f => by
      cases f <;> exact ⟨by decide, by decide, fun _ h _ => by cases h <;> decide,
        fun _ h => by rcases h with h | h <;> cases h <;> decide, fun _ h => (by cases h), fun h => (by cases h)⟩,
    rfl, _, rfl⟩

theorem witness_StepsKeepBerthsSecured :
    (∃ t, step (station 0 (stood .secured)) = .next t) ∧ BerthsKept (station 0 (stood .secured)) ∧
      SecuredKept (station 0 (stood .secured)) ∧ ((station 0 (stood .secured)).face .f1).berth.state = .secured ∧
      (let s := station 0 fun x => { bayIn .unknown x with fi := { x.fi with mode := .starting, censusPass := true } };
        CensusKept s ∧ (s.face .f1).fi.mode = .starting ∧ (s.face .f1).fi.censusPass = true ∧ ∃ t, step s = .next t) :=
  ⟨⟨_, rfl⟩, fun f => by unfold Berth.kept; cases f <;> decide,
    fun f => by cases f <;> decide, rfl, fun f => by cases f <;> decide, rfl, rfl, _, rfl⟩

/-- A part whose loop of face F1 is closed, which a millisecond leaves closed. -/
theorem witness_StepsKeepProvingTrue :
    ProvingKept (station 0 id) ∧ (∃ t, step (station 0 id) = .next t ∧ t.prove .f1 = true) :=
  ⟨fun f => by cases f <;> decide, _, rfl, by decide⟩

/-- A step in which a node enters LOST, and one in which a bay is isolated. -/
theorem witness_nodes_condition :
    let lost := station 0 fun x => withLine (fun l => l.setNode 33 ⟨21, .marginal, 0, none, none⟩) (polling .list 33 x)
    let t := after (.transactionTimeout .f1) lost
    (decide (((t.face .f1).line.node 33).link = .lost) ≠ decide (((lost.face .f1).line.node 33).link = .lost) ∧
        (t.face .f1).fi.conditions.nodes = false) ∧
      ((station 0 id).bay? .f1 9).map Bay.isolated = some false ∧
      ((after (.isolateBay 0#8 (key 1 9 0) []) (station 0 id)).bay? .f1 9).map Bay.isolated = some true := by decide

theorem witness_CommandsStayOnTheirFace :
    (∃ t, exec (.popenPress .f1) (station 0 id) = .next t) ∧ commandFace (.popenPress .f1) = some .f1 ∧
      Face.f2 ≠ .f1 := ⟨⟨_, rfl⟩, rfl, by decide⟩

end Sys2Proof.Tests
end

section
/-! SUPPORT. The Profile Table (chapter 2): what its look-ups, the berths' references and RETIRE PROFILE come to, and the
statement about RETIRE PROFILE settled. -/

namespace Sys2Proof.Machine

/-! ### The Profile Table's look-ups (R16) -/

/-- R16: a profile is found under its own code. -/
theorem code_of_profile? {s : State} {code : Nat} {p : Profile} (h : s.profile? code = some p) : p.code = code := by
  simpa using List.find?_some h

theorem mem_of_profile? {s : State} {code : Nat} {p : Profile} (h : s.profile? code = some p) : p ∈ s.profiles :=
  List.mem_of_find?_eq_some h

/-- R22: a code whose records are discarded is free again. -/
theorem profile?_eq_none_of_filter {s t : State} {code : Nat}
    (h : t.profiles = s.profiles.filter fun x => x.code != code) : t.profile? code = none := by
  unfold State.profile?
  rw [h, List.find?_eq_none]
  intro x hx
  simpa using (List.mem_filter.mp hx).2

/-! ### The references of the berths (R25) -/

/-- A count of 0 says that no berth names the code. -/
theorem namedBy_eq_zero_iff (s : State) (code : Nat) :
    s.namedBy code = 0 ↔ ∀ f, (s.face f).berth.profile ≠ some code := by
  have every : ∀ f : Face, f ∈ allFaces := fun f => by cases f <;> decide
  simp [State.namedBy, every]

/-- R25: where the counts are kept, an enrolled profile with reference count 0 is named by no berth. -/
theorem not_named_of_refs_eq_zero {s : State} {p : Profile} (h : ReferencesKept s) (hp : p ∈ s.profiles)
    (h0 : p.refs = 0) (f : Face) : (s.face f).berth.profile ≠ some p.code := by
  obtain ⟨-, counts, -⟩ := h
  have unnamed : s.namedBy p.code = 0 := by rw [← counts p hp, h0]
  exact (namedBy_eq_zero_iff s p.code).mp unnamed f

/-! ### RETIRE PROFILE, check by check (R22) -/

theorem retireProfileWork_unknown {s : State} {code : Nat} (h : s.profile? code = none) :
    retireProfileWork code s = (s, reply .noRecord) := by
  simp only [retireProfileWork, h]

theorem retireProfileWork_inUse {s : State} {code : Nat} {p : Profile} (h : s.profile? code = some p)
    (hr : 0 < p.refs) : retireProfileWork code s = (s, reply .inUse) := by
  simp only [retireProfileWork, h, if_pos hr]

theorem retireProfileWork_done {s : State} {code : Nat} {p : Profile} (h : s.profile? code = some p)
    (hr : p.refs = 0) :
    retireProfileWork code s =
      ({ s with
          profiles := s.profiles.filter (fun x => x.code != code)
          freePool := s.freePool + p.doors.length },
        ⟨.done, num (s.freePool + p.doors.length)⟩) := by
  simp only [retireProfileWork, h, hr, Nat.lt_irrefl, if_false]

/-- The request that a RETIRE PROFILE without data is. -/
def retireProfileRequest (key : Key) : Request := ⟨4#8, 3#8, key, 0#8, []⟩

/-- A RETIRE PROFILE taken in IDLE is answered with what its work answers. -/
theorem answers_retireProfile {s t : State} {key : Key} {code : AnswerCode} {data : List Byte} (h : s.takesRequests)
    (hw : retireProfileWork key.k1.toNat (working (retireProfileRequest key) s) =
      ({ t with port := (working (retireProfileRequest key) s).port }, ⟨code, data⟩)) :
    Answers (.retireProfile key []) s code data t :=
  answers_of (q := retireProfileRequest key) h rfl rfl hw

/-- Settles O24, check by check of R22. -/
theorem retireProfileReturnsItsEntries : Obligations.RetireProfileReturnsItsEntries := by
  intro s key hs
  refine ⟨fun hn => ?unknown, fun p hp => ⟨fun hr => ?inUse, fun h0 => ?done⟩⟩
  case unknown => exact answers_retireProfile hs (retireProfileWork_unknown hn)
  case inUse => exact answers_retireProfile hs (retireProfileWork_inUse hp hr)
  case done =>
    have hc := code_of_profile? hp
    refine ⟨_, answers_retireProfile hs ?_, rfl, profile?_eq_none_of_filter rfl,
      fun kept f => not_named_of_refs_eq_zero kept (mem_of_profile? hp) h0 f⟩
    rw [hc]
    exact retireProfileWork_done hp h0

end Sys2Proof.Machine
end

section
/-! SUPPORT. The fusion of the Alignment Unit (chapter 4): the estimates, their median, those that agree with it and their
mean, and the statement about the fusion settled. -/

namespace Sys2Proof.Machine

/-! ### The estimates (R58) -/

/-- R58: a reading's estimate on a face of known length, with its three conditions. -/
theorem estimate_of_length {s : State} {f : Face} {lf : Nat} (h : (s.face f).config.lf = some lf) (dir : Direction)
    (q : Nat) (r : Reading) :
    estimate s f dir q r =
      if r.seen = true ∧ s.age r.takenAt < (s.face f).config.readingAge ∧ 0 ≤ (r.position : Int) + sign dir * q ∧
          (r.position : Int) + sign dir * q ≤ lf
      then some ((r.position : Int) + sign dir * q) else none := by
  simp only [estimate, h]

/-- R58: an estimate beyond the face is discarded. -/
theorem on_face_of_estimate {s : State} {f : Face} {dir : Direction} {q : Nat} {r : Reading} {e : Int}
    (h : estimate s f dir q r = some e) : ∃ lf : Nat, (s.face f).config.lf = some lf ∧ 0 ≤ e ∧ e ≤ lf := by
  cases hl : (s.face f).config.lf with
  | none => simp [estimate, hl] at h
  | some lf =>
    rw [estimate_of_length hl, Option.ite_none_right_eq_some] at h
    obtain ⟨⟨-, -, low, high⟩, he⟩ := h
    cases he
    exact ⟨lf, rfl, low, high⟩

theorem estimates_of_berth {s : State} {f : Face} {p : Profile} {dir : Direction} (hp : s.berthProfile f = some p)
    (hd : (s.face f).berth.dir = some dir) :
    estimates s f =
      [Marker.m1, .m2, .m3, .m4].filterMap fun k => ((s.face f).au.readings.get k).bind (estimate s f dir p.q) := by
  simp only [estimates, hp, hd]
  refine List.filterMap_congr fun k _ => ?_
  cases (s.face f).au.readings.get k <;> rfl

/-- R59: a berth without a profile or a direction forms no estimate. -/
theorem estimates_of_no_berth {s : State} {f : Face} (h : s.berthProfile f = none ∨ (s.face f).berth.dir = none) :
    estimates s f = [] := by
  unfold estimates
  split
  next p dir hp hd => simp [hp, hd] at h
  next => rfl

/-- An estimate comes of a marker's reading, with the berth's profile and direction. -/
theorem berth_of_mem_estimates {s : State} {f : Face} {e : Int} (h : e ∈ estimates s f) :
    ∃ p dir, s.berthProfile f = some p ∧ (s.face f).berth.dir = some dir ∧
      ∃ k r, (s.face f).au.readings.get k = some r ∧ estimate s f dir p.q r = some e := by
  cases hp : s.berthProfile f with
  | none => simp [estimates_of_no_berth (.inl hp)] at h
  | some p =>
    cases hd : (s.face f).berth.dir with
    | none => simp [estimates_of_no_berth (.inr hd)] at h
    | some dir =>
      rw [estimates_of_berth hp hd] at h
      obtain ⟨k, -, hk⟩ := List.mem_filterMap.mp h
      obtain ⟨r, hr, he⟩ := Option.bind_eq_some_iff.mp hk
      exact ⟨p, dir, rfl, rfl, k, r, hr, he⟩

theorem on_face_of_mem_estimates {s : State} {f : Face} {e : Int} (h : e ∈ estimates s f) :
    ∃ lf : Nat, (s.face f).config.lf = some lf ∧ 0 ≤ e ∧ e ≤ lf := by
  obtain ⟨_, _, -, -, _, _, -, he⟩ := berth_of_mem_estimates h
  exact on_face_of_estimate he

/-- R58: a face without a length holds no estimate. -/
theorem estimates_of_no_length {s : State} {f : Face} (h : (s.face f).config.lf = none) : estimates s f = [] := by
  refine List.eq_nil_iff_forall_not_mem.mpr fun e he => ?_
  obtain ⟨lf, hl, -⟩ := on_face_of_mem_estimates he
  simp [h] at hl

/-- R58: one estimate at most of each of the four markers. -/
theorem length_estimates_le (s : State) (f : Face) : (estimates s f).length ≤ 4 := by
  unfold estimates
  split
  · exact List.length_filterMap_le _ _
  · exact Nat.zero_le 4

/-! ### The median (R60) -/

theorem insertAscending_eq_orderedInsert (x : Int) (l : List Int) :
    insertAscending x l = l.orderedInsert (· ≤ ·) x := by
  induction l with
  | nil => rfl
  | cons y ys ih => rw [insertAscending, ih, List.orderedInsert_cons]

theorem ascending_eq_insertionSort (es : List Int) : ascending es = es.insertionSort (· ≤ ·) := by
  induction es with
  | nil => rfl
  | cons x xs ih => rw [ascending, insertAscending_eq_orderedInsert, ih, List.insertionSort_cons]

theorem ascending_perm (es : List Int) : (ascending es).Perm es := by
  rw [ascending_eq_insertionSort]
  exact List.perm_insertionSort _ es

theorem pairwise_ascending (es : List Int) : (ascending es).Pairwise (fun a b => a ≤ b) := by
  rw [ascending_eq_insertionSort]
  exact List.pairwise_insertionSort _ es

/-- R60: position (n - 1)/2 is one of the n positions, so the median is the estimate there. -/
theorem ascending_getElem?_median {es : List Int} (h : es ≠ []) :
    (ascending es)[(es.length - 1) / 2]? = some (medianOf es) := by
  have inside : (es.length - 1) / 2 < (ascending es).length := by
    have := List.length_pos_of_ne_nil h
    rw [(ascending_perm es).length_eq]
    omega
  simp [medianOf, inside]

theorem medianOf_mem {es : List Int} (h : es ≠ []) : medianOf es ∈ es :=
  (ascending_perm es).mem_iff.mp (List.mem_of_getElem? (ascending_getElem?_median h))

/-! ### The estimates kept (R60) -/

theorem keptOf_eq_filter_between (limit : Nat) (es : List Int) :
    keptOf limit es = es.filter fun e => decide (medianOf es - limit ≤ e ∧ e ≤ medianOf es + limit) := by
  refine List.filter_congr fun e _ => decide_eq_decide.mpr ?_
  omega

theorem mem_of_mem_keptOf {limit : Nat} {es : List Int} {e : Int} (h : e ∈ keptOf limit es) : e ∈ es :=
  List.mem_of_mem_filter h

/-- R60: the median is at distance 0 from itself, so it is kept under every limit. -/
theorem medianOf_mem_keptOf {es : List Int} (limit : Nat) (h : es ≠ []) : medianOf es ∈ keptOf limit es := by
  simp [keptOf, medianOf_mem h]

/-! ### The mean rounded half up (R61) -/

/-- R61: the mean as a quotient with remainder. -/
theorem meanOf_bounds {ks : List Int} (h : ks ≠ []) :
    ks.length * meanOf ks ≤ ks.sum + (ks.length / 2 : Nat) ∧
      ks.sum + (ks.length / 2 : Nat) < ks.length * (meanOf ks + 1) := by
  have positive : (0 : Int) < ks.length := by exact_mod_cast List.length_pos_of_ne_nil h
  exact ⟨Int.mul_ediv_self_le positive.ne', Int.lt_mul_ediv_self_add positive |>.trans_eq (by rw [meanOf]; ring)⟩

/-- R61: if every kept estimate exceeded the mean by 1 or more, their sum would too, m-fold. -/
theorem exists_le_meanOf {ks : List Int} (h : ks ≠ []) : ∃ e ∈ ks, e ≤ meanOf ks := by
  by_contra! above
  obtain ⟨-, below⟩ := meanOf_bounds h
  have large := ks.card_nsmul_le_sum (meanOf ks + 1) fun e he => above e he
  rw [nsmul_eq_mul] at large
  omega

/-- R61: rounding up adds less than one: m/2 is less than m. -/
theorem exists_ge_meanOf {ks : List Int} (h : ks ≠ []) : ∃ e ∈ ks, meanOf ks ≤ e := by
  by_contra! below
  obtain ⟨above, -⟩ := meanOf_bounds h
  have small := ks.sum_le_card_nsmul (meanOf ks - 1) fun e he => Int.le_sub_one_of_lt (below e he)
  have positive := List.length_pos_of_ne_nil h
  rw [nsmul_eq_mul, mul_sub_one] at small
  omega

/-- R61: the mean lies where all of the kept estimates lie. -/
theorem meanOf_between {ks : List Int} {a b : Int} (h : ks ≠ []) (within : ∀ e ∈ ks, a ≤ e ∧ e ≤ b) :
    a ≤ meanOf ks ∧ meanOf ks ≤ b := by
  obtain ⟨low, low_mem, low_le⟩ := exists_le_meanOf h
  obtain ⟨high, high_mem, le_high⟩ := exists_ge_meanOf h
  obtain ⟨le_low, -⟩ := within low low_mem
  obtain ⟨-, high_le⟩ := within high high_mem
  exact ⟨le_low.trans low_le, le_high.trans high_le⟩

/-! ### The fusion, case by case (R59 to R61) -/

theorem fuse_of_no_estimate {s : State} {f : Face} (h : estimates s f = []) : fuse s f = ⟨none, 0, 0, some s.now⟩ := by
  simp [fuse, h]

theorem fuse_of_too_few {s : State} {f : Face} {ks : List Int}
    (hk : ks = keptOf (s.face f).config.agreement (estimates s f)) (h : estimates s f ≠ [])
    (few : ks.length < (s.face f).config.nMin) :
    fuse s f = ⟨none, (estimates s f).length, ks.length, some s.now⟩ := by
  subst hk
  simp [fuse, h, few]

theorem fuse_of_enough {s : State} {f : Face} {ks : List Int}
    (hk : ks = keptOf (s.face f).config.agreement (estimates s f)) (h : estimates s f ≠ [])
    (enough : (s.face f).config.nMin ≤ ks.length) :
    fuse s f = ⟨some (meanOf ks), (estimates s f).length, ks.length, some s.now⟩ := by
  subst hk
  simp [fuse, h, Nat.not_lt.mpr enough]

/-- Settles O33: the estimates by R58, the median and the estimates kept by R60, the result by R61. -/
theorem fusionAgreesWithTheMedian : Obligations.FusionAgreesWithTheMedian := by
  rintro s f es ks limit median rfl rfl rfl rfl
  refine ⟨fun p dir lf hp hd hl => ?formed, ?unformed, length_estimates_le s f, fuse_of_no_estimate,
    fun some_valid => ?fused⟩
  case formed =>
    rw [estimates_of_berth hp hd]
    refine List.filterMap_congr fun k _ => Option.bind_congr fun r _ => ?_
    rw [estimate_of_length hl]
    cases dir with
    | up => simp only [sign, one_mul]
    | down => simp only [sign, neg_one_mul]
  case unformed =>
    rintro (hp | hd | hl)
    · exact estimates_of_no_berth (.inl hp)
    · exact estimates_of_no_berth (.inr hd)
    · exact estimates_of_no_length hl
  case fused =>
    have median_kept := medianOf_mem_keptOf (s.face f).config.agreement some_valid
    have kept_ne := List.ne_nil_of_mem median_kept
    refine ⟨⟨_, ascending_perm _, pairwise_ascending _, ascending_getElem?_median some_valid⟩,
      keptOf_eq_filter_between _ _, median_kept, fuse_of_too_few rfl some_valid, fun enough => ?_⟩
    obtain ⟨lf, hl, -⟩ := on_face_of_mem_estimates (mem_of_mem_keptOf median_kept)
    have on_face : ∀ e ∈ keptOf (s.face f).config.agreement (estimates s f), 0 ≤ e ∧ e ≤ lf := fun e he => by
      obtain ⟨lf', hl', bounds⟩ := on_face_of_mem_estimates (mem_of_mem_keptOf he)
      cases hl.symm.trans hl'
      exact bounds
    obtain ⟨product_le, lt_product⟩ := meanOf_bounds kept_ne
    obtain ⟨mean_nonneg, mean_le⟩ := meanOf_between kept_ne on_face
    exact ⟨_, lf, fuse_of_enough rfl some_valid enough, product_le, lt_product, exists_le_meanOf kept_ne,
      exists_ge_meanOf kept_ne, hl, mean_nonneg, mean_le, on_face⟩

end Sys2Proof.Machine
end

section
/-! SUPPORT. The pass slot (R182, R183): when it raises PASS, what WITHDRAW comes to in each of its states, and the statement
about WITHDRAW settled. -/

namespace Sys2Proof.Machine

/-- R174, R182: PASS is raised by a WAITING request and by nothing else. -/
theorem raised_pass_iff (s : State) (f : Face) :
    raised s f .pass = true ↔ ∃ r, (s.face f).line.passSlot = .waiting r := by
  unfold raised
  cases (s.face f).line.passSlot <;> simp

/-! ### WITHDRAW's work by the slot (R183) -/

/-- R183: the face's slot with its request removed. -/
def slotEmptied (f : Face) (s : State) : State := s.modLine f fun l => { l with passSlot := .empty }

theorem withdrawWork_of_waiting {s : State} {f : Face} {r : PollEntry} (h : (s.face f).line.passSlot = .waiting r) :
    withdrawWork f s = (slotEmptied f s, reply .done) := by
  simp only [withdrawWork, slotEmptied, h]

theorem withdrawWork_of_inFlight {s : State} {f : Face} {r : PollEntry} (h : (s.face f).line.passSlot = .inFlight r) :
    withdrawWork f s = (s, reply .late) := by
  simp only [withdrawWork, h]

theorem withdrawWork_of_ended {s : State} {f : Face} {r : PollEntry} {o : TxOutcome} {d : List Byte}
    (h : (s.face f).line.passSlot = .ended r o d) : withdrawWork f s = (s, reply .late) := by
  simp only [withdrawWork, h]

theorem withdrawWork_of_empty {s : State} {f : Face} (h : (s.face f).line.passSlot = .empty) :
    withdrawWork f s = (s, reply .noRecord) := by
  simp only [withdrawWork, h]

/-- R183: the arbitration passes PASS over once the request is removed. -/
theorem raised_pass_slotEmptied (s : State) (f : Face) : raised (slotEmptied f s) f .pass = false := by
  simp [← Bool.not_eq_true, raised_pass_iff, slotEmptied]

/-! ### The command and its answer -/

theorem exec_withdraw (cls : Byte) (key : Key) (s : State) :
    exec (.withdraw cls key []) s = live s (serve ⟨5#8, cls, key, 15#8, []⟩ (onFace key withdrawWork)) := rfl

/-- A WITHDRAW whose key names a face is answered with what its work answers. -/
theorem answers_withdraw {s t : State} {cls : Byte} {key : Key} {f : Face} {code : AnswerCode} (h : s.takesRequests)
    (hf : faceOf key.k1 = some f)
    (hw : ∀ q, withdrawWork f (working q s) = ({ t with port := (working q s).port }, reply code)) :
    Answers (.withdraw cls key []) s code [] t :=
  answers_of h rfl (exec_withdraw cls key s) (by rw [onFace_some hf]; exact hw _)

/-- Settles O40, by the state of the slot. -/
theorem withdrawAnswersByTheSlot : Obligations.WithdrawAnswersByTheSlot := by
  intro s cls key takes
  refine ⟨answers_no_face takes rfl (exec_withdraw cls key s), fun f hf => ?_⟩
  cases slot : (s.face f).line.passSlot with
  | waiting r =>
      exact ⟨slotEmptied f s, answers_withdraw takes hf fun _ => withdrawWork_of_waiting slot, rfl,
        raised_pass_slotEmptied s f⟩
  | inFlight r => exact answers_withdraw takes hf fun _ => withdrawWork_of_inFlight slot
  | ended r o d => exact answers_withdraw takes hf fun _ => withdrawWork_of_ended slot
  | empty => exact answers_withdraw takes hf fun _ => withdrawWork_of_empty slot

end Sys2Proof.Machine
end
